-- ==== Sys2Proof/Word.lean ====
section
/-! DEFINITION. The words of the block's port (30_encoding.md R70): the 40-bit transaction and its 32-bit data. -/

namespace Sys2Proof

/-- A transaction word `T` as the host sends it (R70). -/
abbrev Txn := BitVec 40

/-- A data word: a WR's `d`, an RD's response (R54). -/
abbrev Word := BitVec 32

end Sys2Proof
end

