-- ==== Sys2Proof/Syntax.lean ====
section
/-! DEFINITION. The transactions of the block, one constructor per row of the opcode map (30_encoding.md R75).
`c` is the two-bit channel field and `d` the data word, both as the transaction carries them. -/

namespace Sys2Proof

inductive Instr where
  /-- R120 -/ | wrfreq (c : BitVec 2) (d : Word)
  /-- R121 -/ | wrvol (c : BitVec 2) (d : Word)
  /-- R122 -/ | wract (c : BitVec 2) (d : Word)
  /-- R123 -/ | wrmute (c : BitVec 2) (d : Word)
  /-- R124 -/ | wrpulse (d : Word)
  /-- R125 -/ | wrring (d : Word)
  /-- R100 -/ | wrnmode (d : Word)
  /-- R126 -/ | rdfreq (c : BitVec 2)
  /-- R127 -/ | rdvol (c : BitVec 2)
  /-- R128 -/ | rdact (c : BitVec 2)
  /-- R129 -/ | rdmute (c : BitVec 2)
  /-- R130 -/ | rdpulse
  /-- R131 -/ | rdring
  /-- R101 -/ | rdnmode
  /-- R106 -/ | rdlfsr
  /-- R132 -/ | rdvolmax
  /-- R133 -/ | rdcnt (c : BitVec 2)
  /-- R134 -/ | rdamp (c : BitVec 2)
  /-- R190 -/ | sample
  /-- R250 -/ | reset
  deriving DecidableEq, Repr

end Sys2Proof
end

