-- ==== Sys2Proof/WellFormed.lean ====
section
/-! DEFINITION. Well-formed transactions: those whose channel field names a channel (30_encoding.md R74, R75:
`c` ranges over 0, 1, 2). The width of a WRNMODE is not checked here: its row takes any `d`, and R100 refuses. -/

namespace Sys2Proof

/-- The channel field of a transaction, where it has one (R72). -/
def Instr.channelField : Instr → Option (BitVec 2)
  | .wrfreq c _ | .wrvol c _ | .wract c _ | .wrmute c _ => some c
  | .rdfreq c | .rdvol c | .rdact c | .rdmute c => some c
  | .rdcnt c | .rdamp c => some c
  | .wrpulse _ | .wrring _ | .wrnmode _ => none
  | .rdpulse | .rdring | .rdnmode | .rdlfsr | .rdvolmax => none
  | .sample | .reset => none

/-- The channel field, where there is one, names one of the three channels (R74). -/
def Instr.wellFormed (i : Instr) : Bool := i.channelField != some 3

end Sys2Proof
end

