-- ==== Sys2Proof/Decode.lean ====
section
/-! DEFINITION. Decoding, total on every 40-bit word (30_encoding.md R77), and the encoder of the same map (R75). -/

namespace Sys2Proof

/-- Why a word is no transaction of the opcode map; in the order of 60_exceptions.md R222. -/
inductive DecodeError where
  /-- RD, SAMPLE or RESET with `d` not 0, SAMPLE or RESET with `a` not 0 (R76). -/
  | reservedEncoding
  /-- An address whose channel field is 3: 0x0C..0x0F, 0x1B, 0x1F (R74, R135). -/
  | noSuchChannel
  /-- A WR to a read-only address, a WR or RD to a reserved one (R135). -/
  | reservedAddress
  deriving DecidableEq, Repr

/-- Field `k`, bits 39:38 (R70). -/
def kindField (w : Txn) : BitVec 2 := w.extractLsb' 38 2

/-- Field `a`, bits 37:32 (R70). -/
def addrField (w : Txn) : BitVec 6 := w.extractLsb' 32 6

/-- Field `d`, bits 31:0 (R70). -/
def dataField (w : Txn) : Word := w.extractLsb' 0 32

/-- The word with the given fields (R70). -/
def mkTxn (k : BitVec 2) (a : BitVec 6) (d : Word) : Txn := k ++ a ++ d

/-- The registers of the address map (10_state.md R28), a channel register with its channel field. -/
inductive Reg where
  | freq (c : BitVec 2) | vol (c : BitVec 2) | active (c : BitVec 2) | muted (c : BitVec 2)
  | pulse | ring | nwidth | lfsr | volmax
  | cnt (c : BitVec 2) | amp (c : BitVec 2)
  deriving DecidableEq, Repr

/-- The channel number, unless the field is 3 (R74). -/
def channelOr (c : BitVec 2) (r : BitVec 2 → Reg) : Except DecodeError Reg :=
  if c = 3 then .error .noSuchChannel else .ok (r c)

/-- The register at address `a`, by the sub-fields of R72 and the map of R28. -/
def regAt (a : BitVec 6) : Except DecodeError Reg :=
  match (a.extractLsb' 4 2).toNat with
  | 0 =>
    match (a.extractLsb' 0 2).toNat with
    | 0 => channelOr (a.extractLsb' 2 2) .freq
    | 1 => channelOr (a.extractLsb' 2 2) .vol
    | 2 => channelOr (a.extractLsb' 2 2) .active
    | _ => channelOr (a.extractLsb' 2 2) .muted
  | 1 =>
    match (a.extractLsb' 0 4).toNat with
    | 0 => .ok .pulse
    | 1 => .ok .ring
    | 2 => .ok .nwidth
    | 3 => .ok .lfsr
    | 4 => .ok .volmax
    | 5 | 6 | 7 => .error .reservedAddress
    | 8 | 9 | 10 | 11 => channelOr (a.extractLsb' 0 2) .cnt
    | _ => channelOr (a.extractLsb' 0 2) .amp
  | _ => .error .reservedAddress

/-- The WR of a register; a read-only register takes none (R135). -/
def writeOf (d : Word) : Reg → Except DecodeError Instr
  | .freq c => .ok (.wrfreq c d)
  | .vol c => .ok (.wrvol c d)
  | .active c => .ok (.wract c d)
  | .muted c => .ok (.wrmute c d)
  | .pulse => .ok (.wrpulse d)
  | .ring => .ok (.wrring d)
  | .nwidth => .ok (.wrnmode d)
  | .lfsr | .volmax | .cnt _ | .amp _ => .error .reservedAddress

/-- The RD of a register: every register of the map can be read (R28). -/
def readOf : Reg → Instr
  | .freq c => .rdfreq c
  | .vol c => .rdvol c
  | .active c => .rdact c
  | .muted c => .rdmute c
  | .pulse => .rdpulse
  | .ring => .rdring
  | .nwidth => .rdnmode
  | .lfsr => .rdlfsr
  | .volmax => .rdvolmax
  | .cnt c => .rdcnt c
  | .amp c => .rdamp c

/-- A WR: any `d`, the address looked up (R77). -/
def decodeWrite (a : BitVec 6) (d : Word) : Except DecodeError Instr :=
  match regAt a with
  | .error e => .error e
  | .ok r => writeOf d r

/-- An RD: `d` must be 0, which is asked first (R222), then the address is looked up (R77). -/
def decodeRead (a : BitVec 6) (d : Word) : Except DecodeError Instr :=
  if d = 0 then
    match regAt a with
    | .error e => .error e
    | .ok r => .ok (readOf r)
  else .error .reservedEncoding

/-- A SAMPLE or RESET: `a` and `d` must be 0 (R71, R77). -/
def decodeBare (i : Instr) (a : BitVec 6) (d : Word) : Except DecodeError Instr :=
  if a = 0 ∧ d = 0 then .ok i else .error .reservedEncoding

/-- The transaction a word names, or the reason it names none (R77). -/
def decode (w : Txn) : Except DecodeError Instr :=
  match (kindField w).toNat with
  | 0 => decodeWrite (addrField w) (dataField w)
  | 1 => decodeRead (addrField w) (dataField w)
  | 2 => decodeBare .sample (addrField w) (dataField w)
  | _ => decodeBare .reset (addrField w) (dataField w)

/-- The word of a transaction, from the opcode map's bit patterns (R75). -/
def encode : Instr → Txn
  | .wrfreq c d => mkTxn 0b00 (0b00#2 ++ c ++ 0b00#2) d
  | .wrvol c d => mkTxn 0b00 (0b00#2 ++ c ++ 0b01#2) d
  | .wract c d => mkTxn 0b00 (0b00#2 ++ c ++ 0b10#2) d
  | .wrmute c d => mkTxn 0b00 (0b00#2 ++ c ++ 0b11#2) d
  | .wrpulse d => mkTxn 0b00 0x10 d
  | .wrring d => mkTxn 0b00 0x11 d
  | .wrnmode d => mkTxn 0b00 0x12 d
  | .rdfreq c => mkTxn 0b01 (0b00#2 ++ c ++ 0b00#2) 0
  | .rdvol c => mkTxn 0b01 (0b00#2 ++ c ++ 0b01#2) 0
  | .rdact c => mkTxn 0b01 (0b00#2 ++ c ++ 0b10#2) 0
  | .rdmute c => mkTxn 0b01 (0b00#2 ++ c ++ 0b11#2) 0
  | .rdpulse => mkTxn 0b01 0x10 0
  | .rdring => mkTxn 0b01 0x11 0
  | .rdnmode => mkTxn 0b01 0x12 0
  | .rdlfsr => mkTxn 0b01 0x13 0
  | .rdvolmax => mkTxn 0b01 0x14 0
  | .rdcnt c => mkTxn 0b01 (0b0110#4 ++ c) 0
  | .rdamp c => mkTxn 0b01 (0b0111#4 ++ c) 0
  | .sample => mkTxn 0b10 0 0
  | .reset => mkTxn 0b11 0 0

/-- What the decoder reads from a table word: the port takes the 40 bits whole (R52), the bits above `nbits` are 0,
and a number that does not fit is no word of the port. -/
def decodeTableWord (nbits w : Nat) : Option Instr :=
  if w < 2 ^ min nbits 40 then
    match decode (BitVec.ofNat 40 w) with
    | .ok i => some i
    | .error _ => none
  else none

end Sys2Proof
end

