-- ==== Sys2Proof/Config.lean ====
section
/-! DEFINITION. The parameters a model of the block takes as arguments (00_scope.md R5, R6). They are constant along
a run and stand in `State.cfg`, so that every statement about all states is a statement about all parameters. -/

namespace Sys2Proof

/-- The parameters of R6: `S`, the sample rate, and the volume RESET writes. -/
structure Config where
  /-- `OUTPUT_SCALE`, written `S`: an integer with `abs(S) <= 2^26` (R6). -/
  outputScale : Int
  /-- `SAMPLE_RATE`: no rule depends on it (R260). -/
  sampleRate : Nat
  /-- `RESET_VOL`, 0 to 15 (R6). -/
  resetVol : BitVec 4
  deriving DecidableEq, Repr

/-- The bound the spec puts on `OUTPUT_SCALE` (R6). -/
abbrev Config.Legal (c : Config) : Prop := -(2 ^ 26) ≤ c.outputScale ∧ c.outputScale ≤ 2 ^ 26

/-- An integer nobody knows: the source of the reference chip's output scale (R5 OPEN, D13; log 4). -/
opaque Config.openScale : Int

/-- The reference chip's sample rate (R5 OPEN, D28; log 5). -/
opaque Config.openRate : Nat

/-- The reference chip (R5): an open scale within R6's bound (every legal scale is the clamp of some integer), an
open rate, and `RESET_VOL` = 15. -/
def Config.reference : Config where
  outputScale := min (max Config.openScale (-(2 ^ 26))) (2 ^ 26)
  sampleRate := Config.openRate
  resetVol := 15

end Sys2Proof
end

