-- ==== Sys2Proof/Machine/State.lean ====
section
/-! DEFINITION. The state of the block (10_state.md), plain data, and its values after RESET (R33). -/

namespace Sys2Proof.Machine

/-- The reasons a transaction has no meaning (60_exceptions.md R220). -/
inductive Refusal where
  /-- Raised by `exec` alone, for an instruction the model has no meaning for; no arm of this model does. Safe. -/
  | notModelled (mnemonic : String)
  /-- Code 1: any transaction but RESET before the first RESET (R251); raised by every meaning but RESET's and by
  `transact`. Safe: the spec refuses. -/
  | notStarted
  /-- Code 2: a word whose fields must be 0 and are not (R76); raised by `transact`. Safe: the spec refuses. -/
  | reservedEncoding
  /-- Code 3: channel field 3 (R74); raised by `transact` and by every meaning with a channel. Safe: the spec refuses. -/
  | noSuchChannel
  /-- Code 4: a WR to a read-only address or an access to a reserved one (R135); raised by `transact`. Safe: the spec refuses. -/
  | reservedAddress
  /-- Code 5: WRNMODE with a width other than 3, 4, 10 (R100); raised by `execWrnmode`. Safe: the spec refuses. -/
  | noiseWidthNotLegal
  deriving DecidableEq, Repr

/-- True of the five reasons of R220, false of the model's own `notModelled`. -/
def Refusal.ofSpec : Refusal → Bool
  | .notModelled _ => false
  | .notStarted | .reservedEncoding | .noSuchChannel | .reservedAddress | .noiseWidthNotLegal => true

/-- The block has no fault (00_scope.md R9: 'no fault outcome exists'): no constructor, and nothing raises one. -/
inductive Fault where
  deriving DecidableEq, Repr

/-- The three channels (R3). -/
inductive Chan where
  | ch0 | ch1 | ch2
  deriving DecidableEq, Repr

/-- The three widths `nwidth` can hold (R27). -/
inductive NoiseWidth where
  | w3 | w4 | w10
  deriving DecidableEq, Repr

/-- One channel bank (R20). -/
structure Channel where
  /-- The period divider (R21). -/
  freq : BitVec 8
  /-- The amplitude multiplier (R22). -/
  vol : BitVec 4
  active : Bool
  muted : Bool
  /-- The phase counter (R23, R226). -/
  cnt : BitVec 16
  /-- The held amplitude, two's complement (R24). -/
  amp : BitVec 32
  deriving DecidableEq, Repr

/-- The registers of the block (R20, R27). -/
structure Block where
  ch0 : Channel
  ch1 : Channel
  ch2 : Channel
  pulse : Bool
  ring : Bool
  nwidth : NoiseWidth
  lfsr : BitVec 10
  deriving DecidableEq, Repr

/-- What the block answers to one RD or one SAMPLE (00_scope.md R8, 20_memory.md R52). -/
inductive Response where
  /-- An RD's 32-bit value. -/
  | read (v : Word)
  /-- A SAMPLE's output, 16-bit two's complement, and its oscilloscope values, 32-bit two's complement. -/
  | sample (y : BitVec 16) (osc0 osc1 osc2 : BitVec 32)
  deriving DecidableEq, Repr

/-- What is recorded of a refused transaction (60_exceptions.md R220). -/
structure RefusalRecord where
  reason : Refusal
  word : Txn
  deriving DecidableEq, Repr

/-- The whole machine: the block, the two model-only marks of R32, the parameters of R6, and the host's side of the
port (the transactions still to come, the responses given). -/
structure State where
  block : Block
  /-- False until the first RESET (R32). -/
  started : Bool
  /-- The refused transactions, oldest first; the mark `refused` of R32 is that there is one (log 3). -/
  refusals : List RefusalRecord
  cfg : Config
  /-- The transactions the host has yet to issue, the next one first (R7, R8; log 1). -/
  host : List Txn
  /-- The responses so far, oldest first: the observation of R8 (log 7). -/
  responses : List Response
  deriving DecidableEq, Repr

/-- The mark `refused` (R32): some transaction of the run was refused. -/
def State.refused (s : State) : Bool := !s.refusals.isEmpty

/-- A channel after RESET, with the volume `v` (R33, R250). -/
def Channel.afterReset (v : BitVec 4) : Channel where
  freq := 0
  vol := v
  active := false
  muted := false
  cnt := 0
  amp := 0

/-- The block after RESET, with `RESET_VOL` = `v` (R33, R250). -/
def Block.afterReset (v : BitVec 4) : Block where
  ch0 := Channel.afterReset v
  ch1 := Channel.afterReset v
  ch2 := Channel.afterReset v
  pulse := false
  ring := false
  nwidth := .w10
  lfsr := 0x3FF

/-- Power-on of the reference chip: not started, and what the registers hold reaches nobody (R32, R251; log 8). -/
def State.powerOn : State where
  block := Block.afterReset Config.reference.resetVol
  started := false
  refusals := []
  cfg := Config.reference
  host := []
  responses := []

/-- The machine right after RESET (R33), with no transaction waiting and nothing observed (log 2). -/
def State.reset : State where
  block := Block.afterReset Config.reference.resetVol
  started := true
  refusals := []
  cfg := Config.reference
  host := []
  responses := []

end Sys2Proof.Machine
end

