-- ==== Sys2Proof/Machine/Operands.lean ====
section
/-! DEFINITION. The operand forms: how a data word is read and narrowed to a register, how a register is widened to
a response, and how a field names a channel (30_encoding.md R72 to R74, 20_memory.md R54). -/

namespace Sys2Proof.Machine

/-- `sext_32(d)` (R12, R73). -/
def sext32 (d : Word) : Int := d.toInt

/-- `clamp(v, lo, hi)` (R12). -/
def clamp (v lo hi : Int) : Int := min (max v lo) hi

/-- The ceiling of `freq`, the same for tone and noise channels (R5, 90_conflicts.md C6). -/
def freqMax : Int := 255

/-- `VOL_MAX` (R5). -/
def volMax : Int := 15

/-- `OUT_MIN` (R5). -/
def outMin : Int := -32768

/-- `OUT_MAX` (R5). -/
def outMax : Int := 32767

/-- `OSC_GAIN` (R5). -/
def oscGain : Int := 2

/-- What a WR to `freq` stores: the operand saturated to 0..255 (R73, R120). -/
def freqOf (d : Word) : BitVec 8 := BitVec.ofInt 8 (clamp (sext32 d) 0 freqMax)

/-- What a WR to `vol` stores: the operand saturated to 0..15 (R73, R121). -/
def volOf (d : Word) : BitVec 4 := BitVec.ofInt 4 (clamp (sext32 d) 0 volMax)

/-- The channel a field names; 3 names none (R74). -/
def channelOf (c : BitVec 2) : Option Chan :=
  match c.toNat with
  | 0 => some .ch0
  | 1 => some .ch1
  | 2 => some .ch2
  | _ => none

/-- The width a WRNMODE operand names: an exact match against 3, 4, 10 (R73, R100). -/
def widthOf (v : Int) : Option NoiseWidth :=
  if v = 3 then some .w3 else if v = 4 then some .w4 else if v = 10 then some .w10 else none

/-- The number `nwidth` holds (R27). -/
def widthBits : NoiseWidth → Nat
  | .w3 => 3
  | .w4 => 4
  | .w10 => 10

/-- `2^w - 1` as a 10-bit word: the mask of the width, and its all-ones seed (R100, R102). -/
def widthMask (w : NoiseWidth) : BitVec 10 := BitVec.ofNat 10 (2 ^ widthBits w - 1)

/-- `zext_32` of a register of `n` bits (R12, R54). -/
def zext32 {n : Nat} (v : BitVec n) : Word := v.setWidth 32

end Sys2Proof.Machine
end

