-- ==== Sys2Proof/Machine/Flags.lean ====
section
/-! DEFINITION. The block's one-bit elements (10_state.md R26): `active`, `muted`, `pulse`, `ring`. There are no
condition codes, and no transaction writes one of the four as a side effect; each has its own write (R122 to R125). -/

namespace Sys2Proof.Machine

/-- `bool(v)` of a WR's operand: 1 if it is not 0 (R12, R73). -/
def flagOf (d : Word) : Bool := sext32 d != 0

/-- `zext_32` of a one-bit element (R54). -/
def flagWord (b : Bool) : Word := if b then 1 else 0

/-- `active` set to `b`, all else kept (R122). -/
def setActive (b : Bool) (c : Channel) : Channel := { c with active := b }

/-- `muted` set to `b`, all else kept (R123). -/
def setMuted (b : Bool) (c : Channel) : Channel := { c with muted := b }

/-- `pulse` set to `b`, all else kept (R124). -/
def setPulse (b : Bool) (k : Block) : Block := { k with pulse := b }

/-- `ring` set to `b`, all else kept (R125). -/
def setRing (b : Bool) (k : Block) : Block := { k with ring := b }

end Sys2Proof.Machine
end

