-- ==== Sys2Proof/Machine/Ops.lean ====
section
/-! DEFINITION. The shared operations: reaching a channel bank, the shapes of a register write and a register read,
giving a response, and recording a refusal (the block has no memory, R50, and takes no exception, R220 and R223). -/

namespace Sys2Proof.Machine

/-- What a transaction answers: a next state, or a refusal (00_scope.md R9). -/
abbrev Result := Host.Outcome State Fault Refusal

/-- The bank of channel `j` (R20). -/
def getChan (j : Chan) (k : Block) : Channel :=
  match j with
  | .ch0 => k.ch0
  | .ch1 => k.ch1
  | .ch2 => k.ch2

/-- The block with the bank of channel `j` replaced. -/
def setChan (j : Chan) (c : Channel) (k : Block) : Block :=
  match j with
  | .ch0 => { k with ch0 := c }
  | .ch1 => { k with ch1 := c }
  | .ch2 => { k with ch2 := c }

/-- The block with the bank of channel `j` changed by `f`. -/
def mapChan (j : Chan) (f : Channel → Channel) (k : Block) : Block := setChan j (f (getChan j k)) k

/-- The state with the block changed by `f`. -/
def mapBlock (f : Block → Block) (s : State) : State := { s with block := f s.block }

/-- `started` is asked before anything else (R222, R251). -/
def whenStarted (s : State) (r : Result) : Result := if s.started then r else .refused .notStarted

/-- `if c = 3: raise Refuse(NoSuchChannel)`, else the channel (R74). -/
def withChannel (c : BitVec 2) (r : Chan → Result) : Result :=
  match channelOf c with
  | some j => r j
  | none => .refused .noSuchChannel

/-- `respond(v)` (R12): the response joins the observation, nothing else changes (R136). -/
def respond (v : Word) (s : State) : State := { s with responses := s.responses ++ [.read v] }

/-- `emit(y, o0, o1, o2)` (R12), the values narrowed to the widths of R52. -/
def emit (y o0 o1 o2 : Int) (s : State) : State :=
  { s with responses := s.responses ++
      [.sample (BitVec.ofInt 16 y) (BitVec.ofInt 32 o0) (BitVec.ofInt 32 o1) (BitVec.ofInt 32 o2)] }

/-- A WR to a register of channel `c` (R120 to R123). -/
def writeChannel (c : BitVec 2) (f : Channel → Channel) (s : State) : Result :=
  whenStarted s (withChannel c fun j => .next (mapBlock (mapChan j f) s))

/-- A WR to a global register (R124, R125). -/
def writeGlobal (f : Block → Block) (s : State) : Result := whenStarted s (.next (mapBlock f s))

/-- An RD of a register of channel `c` (R126 to R129, R133, R134). -/
def readChannel (c : BitVec 2) (f : Channel → Word) (s : State) : Result :=
  whenStarted s (withChannel c fun j => .next (respond (f (getChan j s.block)) s))

/-- An RD of a global register (R101, R106, R130 to R132). -/
def readGlobal (f : Block → Word) (s : State) : Result := whenStarted s (.next (respond (f s.block) s))

/-- The refusal a decoding error is (R220). -/
def refusalOf : DecodeError → Refusal
  | .reservedEncoding => .reservedEncoding
  | .noSuchChannel => .noSuchChannel
  | .reservedAddress => .reservedAddress

/-- The code of a refusal reason (R220); 0 for the model's own reason, which the spec does not number. -/
def refusalCode : Refusal → Nat
  | .notStarted => 1
  | .reservedEncoding => 2
  | .noSuchChannel => 3
  | .reservedAddress => 4
  | .noiseWidthNotLegal => 5
  | _ => 0

/-- A refused transaction sets the mark, with its reason and its word, and changes nothing else (R9, R220; log 3). -/
def recordRefusal (r : Refusal) (w : Txn) (s : State) : State :=
  { s with refusals := s.refusals ++ [{ reason := r, word := w }] }

end Sys2Proof.Machine
end

