-- ==== Sys2Proof/Machine/Noise.lean ====
section
/-! DEFINITION. The noise generator (40_noise_lfsr.md): WRNMODE, RDNMODE, RDLFSR and the step of the shift register. -/

namespace Sys2Proof.Machine

/-- The width set and the register reseeded to all-ones of that width, also when the width does not change (R100, R254). -/
def setMode (w : NoiseWidth) (k : Block) : Block := { k with nwidth := w, lfsr := widthMask w }

/-- WRNMODE v (R100). -/
def execWrnmode (d : Word) (s : State) : Result :=
  whenStarted s
    (match widthOf (sext32 d) with
    | some w => .next (mapBlock (setMode w) s)
    | none => .refused .noiseWidthNotLegal)

/-- RDNMODE (R101). -/
def execRdnmode (s : State) : Result := readGlobal (fun k => BitVec.ofNat 32 (widthBits k.nwidth)) s

/-- RDLFSR (R106): the read does not step the register. -/
def execRdlfsr (s : State) : Result := readGlobal (fun k => zext32 k.lfsr) s

/-- The two tap positions of a width (R102). -/
def taps : NoiseWidth → Nat × Nat
  | .w10 => (9, 6)
  | .w4 => (3, 2)
  | .w3 => (2, 1)

/-- The feedback bit (R102). -/
def feedback (w : NoiseWidth) (l : BitVec 10) : Bool := l.getLsbD (taps w).1 ^^ l.getLsbD (taps w).2

/-- The register after one step: shifted left by one, the feedback in bit 0, masked to the width (R102). -/
def lfsrStep (w : NoiseWidth) (l : BitVec 10) : BitVec 10 :=
  ((l <<< 1) ||| BitVec.ofNat 10 (feedback w l).toNat) &&& widthMask w

/-- The bit `LfsrStep()` returns: bit 0 of the register after the step (R102). -/
def lfsrBit (w : NoiseWidth) (l : BitVec 10) : Bool := (lfsrStep w l).getLsbD 0

end Sys2Proof.Machine
end

