-- ==== Sys2Proof/Machine/Oscillator.lean ====
section
/-! DEFINITION. Phase counters and oscillators (42_oscillator.md): the micro-operations of one SAMPLE. Arithmetic is
on integers; a value is narrowed only where it is stored (R11). -/

namespace Sys2Proof.Machine

/-- The level `v * S`, as `amp` stores it (R24). -/
def level (S : Int) (v : BitVec 4) : BitVec 32 := BitVec.ofInt 32 (v.toNat * S)

/-- `cnt <- cnt + 1`, stored in 16 bits (R11; below 65535 nothing wraps, R23; log 9). -/
def bump (c : Channel) : Channel := { c with cnt := BitVec.ofNat 16 (c.cnt.toNat + 1) }

/-- `SquareUpdate`: past `freq` the counter restarts and the held amplitude toggles, 0 becoming `vol * S` and anything
else 0 (R163). -/
def squareUpdate (S : Int) (c : Channel) : Channel :=
  if (bump c).cnt.toNat > c.freq.toNat then
    { c with cnt := 0, amp := if c.amp = 0 then level S c.vol else 0 }
  else bump c

/-- The cycle length `L = 4 * (f + 2)` of the pulse variant (R164). -/
def pulseLength (c : Channel) : Nat := 4 * (c.freq.toNat + 2)

/-- The pulse counter after one count: 0 once it reaches the cycle length (R164). -/
def pulseCount (c : Channel) : BitVec 16 :=
  if (bump c).cnt.toNat ≥ pulseLength c then 0 else (bump c).cnt

/-- `PulseUpdate`: high on counts 0 to `freq`, the level written at every update (R164). -/
def pulseUpdate (S : Int) (c : Channel) : Channel :=
  { c with
    cnt := pulseCount c
    amp := if (pulseCount c).toNat ≤ c.freq.toNat then level S c.vol else 0 }

/-- The counter of the noise channel passes its frequency at this update (R165). -/
def noiseWraps (c : Channel) : Bool := (bump c).cnt.toNat > c.freq.toNat

/-- `b * vol * S`, as `amp` stores it (R165). -/
def noiseLevel (S : Int) (b : Bool) (v : BitVec 4) : BitVec 32 := BitVec.ofInt 32 (b.toNat * v.toNat * S)

/-- `NoiseUpdate` of the block: on a wrap the LFSR steps once and its bit gates the amplitude (R165). -/
def noiseUpdate (S : Int) (k : Block) : Block :=
  if noiseWraps k.ch2 then
    { k with
      lfsr := lfsrStep k.nwidth k.lfsr
      ch2 := { k.ch2 with cnt := 0, amp := noiseLevel S (lfsrBit k.nwidth k.lfsr) k.ch2.vol } }
  else { k with ch2 := bump k.ch2 }

/-- `Update(j)`: the waveform of a channel's fixed role (R161). -/
def updateChan (S : Int) (j : Chan) (k : Block) : Block :=
  match j with
  | .ch0 => if k.pulse then mapChan .ch0 (pulseUpdate S) k else mapChan .ch0 (squareUpdate S) k
  | .ch1 => mapChan .ch1 (squareUpdate S) k
  | .ch2 => noiseUpdate S k

/-- A channel sounds when it is active and not muted (R160). -/
def runs (c : Channel) : Bool := c.active && !c.muted

/-- `Gate(j)`, the state it leaves: a channel that does not sound is frozen (R160, 90_conflicts.md C1, C10). -/
def gate (S : Int) (j : Chan) (k : Block) : Block := if runs (getChan j k) then updateChan S j k else k

/-- `Gate(j)`, the output it gives: the amplitude after the update, or 0 (R160). -/
def gateOut (S : Int) (j : Chan) (k : Block) : Int :=
  if runs (getChan j k) then (getChan j (gate S j k)).amp.toInt else 0

end Sys2Proof.Machine
end

