-- ==== Sys2Proof/Machine/Mixer.lean ====
section
/-! DEFINITION. SAMPLE and the mixer (43_mixer.md). -/

namespace Sys2Proof.Machine

/-- The mix, exact on integers: the ring pair is channels 0 and 1 (R191, R192). -/
def mix (ring : Bool) (o0 o1 o2 : Int) : Int := if ring then o0 * o1 + o2 else o0 + o1 + o2

/-- The output sample: the mix clamped once (R193). -/
def clampOut (m : Int) : Int := clamp m outMin outMax

/-- The block past the three gates, in channel order, each on the block the one before left (R13, R162, R190). -/
def sampleBlock (S : Int) (k : Block) : Block := gate S .ch2 (gate S .ch1 (gate S .ch0 k))

/-- The three outputs `out[j]`, each at its gate's turn (R190). -/
def sampleOut (S : Int) (j : Chan) (k : Block) : Int :=
  match j with
  | .ch0 => gateOut S .ch0 k
  | .ch1 => gateOut S .ch1 (gate S .ch0 k)
  | .ch2 => gateOut S .ch2 (gate S .ch1 (gate S .ch0 k))

/-- The output sample of a block (R190 to R193). -/
def sampleY (S : Int) (k : Block) : Int :=
  clampOut (mix (sampleBlock S k).ring (sampleOut S .ch0 k) (sampleOut S .ch1 k) (sampleOut S .ch2 k))

/-- The oscilloscope value of a channel: its own output before the mix, doubled, not clamped (R194). -/
def sampleOsc (S : Int) (j : Chan) (k : Block) : Int := oscGain * sampleOut S j k

/-- SAMPLE (R190). -/
def execSample (s : State) : Result :=
  whenStarted s (.next
    (emit (sampleY s.cfg.outputScale s.block) (sampleOsc s.cfg.outputScale .ch0 s.block)
      (sampleOsc s.cfg.outputScale .ch1 s.block) (sampleOsc s.cfg.outputScale .ch2 s.block)
      (mapBlock (sampleBlock s.cfg.outputScale) s)))

end Sys2Proof.Machine
end

