-- ==== Sys2Proof/Machine/RegisterRead.lean ====
section
/-! DEFINITION. The reads of 41_register_access.md (R126 to R134): each responds with its register and writes no
state (R136). The two reads of the noise generator are in Machine/Noise.lean. -/

namespace Sys2Proof.Machine

/-- RDFREQ c (R126). -/
def execRdfreq (c : BitVec 2) (s : State) : Result := readChannel c (fun k => zext32 k.freq) s

/-- RDVOL c (R127). -/
def execRdvol (c : BitVec 2) (s : State) : Result := readChannel c (fun k => zext32 k.vol) s

/-- RDACT c (R128). -/
def execRdact (c : BitVec 2) (s : State) : Result := readChannel c (fun k => flagWord k.active) s

/-- RDMUTE c (R129). -/
def execRdmute (c : BitVec 2) (s : State) : Result := readChannel c (fun k => flagWord k.muted) s

/-- RDPULSE (R130). -/
def execRdpulse (s : State) : Result := readGlobal (fun k => flagWord k.pulse) s

/-- RDRING (R131). -/
def execRdring (s : State) : Result := readGlobal (fun k => flagWord k.ring) s

/-- RDVOLMAX (R132): hardwired, the same in every state. -/
def execRdvolmax (s : State) : Result := readGlobal (fun _ => BitVec.ofInt 32 volMax) s

/-- RDCNT c (R133). -/
def execRdcnt (c : BitVec 2) (s : State) : Result := readChannel c (fun k => zext32 k.cnt) s

/-- RDAMP c (R134): the 32-bit two's-complement word as it stands, whether or not the channel sounds. -/
def execRdamp (c : BitVec 2) (s : State) : Result := readChannel c (fun k => k.amp) s

end Sys2Proof.Machine
end

