-- ==== Sys2Proof/Machine/RegisterWrite.lean ====
section
/-! DEFINITION. The writes of 41_register_access.md (R120 to R125). A write touches its own register alone (R55): in
particular neither `cnt` nor `amp` (R30). -/

namespace Sys2Proof.Machine

/-- `freq` set to `f`, all else kept (R120). -/
def setFreq (f : BitVec 8) (c : Channel) : Channel := { c with freq := f }

/-- `vol` set to `v`, all else kept (R121). -/
def setVol (v : BitVec 4) (c : Channel) : Channel := { c with vol := v }

/-- WRFREQ c, v (R120). -/
def execWrfreq (c : BitVec 2) (d : Word) (s : State) : Result := writeChannel c (setFreq (freqOf d)) s

/-- WRVOL c, v (R121). -/
def execWrvol (c : BitVec 2) (d : Word) (s : State) : Result := writeChannel c (setVol (volOf d)) s

/-- WRACT c, v (R122). -/
def execWract (c : BitVec 2) (d : Word) (s : State) : Result := writeChannel c (setActive (flagOf d)) s

/-- WRMUTE c, v (R123). -/
def execWrmute (c : BitVec 2) (d : Word) (s : State) : Result := writeChannel c (setMuted (flagOf d)) s

/-- WRPULSE v (R124): set from the operand, not inverted (90_conflicts.md C8). -/
def execWrpulse (d : Word) (s : State) : Result := writeGlobal (setPulse (flagOf d)) s

/-- WRRING v (R125). -/
def execWrring (d : Word) (s : State) : Result := writeGlobal (setRing (flagOf d)) s

end Sys2Proof.Machine
end

