-- ==== Sys2Proof/Machine/Reset.lean ====
section
/-! DEFINITION. RESET (70_reset_and_hazards.md R250). -/

namespace Sys2Proof.Machine

/-- RESET: accepted in every state (R250, R251). The refusal mark stays (R32), the parameters are the machine's, and
no response is given. -/
def execReset (s : State) : Result :=
  .next { s with block := Block.afterReset s.cfg.resetVol, started := true }

end Sys2Proof.Machine
end

