-- ==== Sys2Proof/Machine/Dispatch.lean ====
section
/-! DEFINITION. One arm per transaction: its meaning (30_encoding.md R75). -/

namespace Sys2Proof.Machine

def exec (i : Instr) (s : State) : Host.Outcome State Fault Refusal :=
  match i with
  | .wrfreq c d => Sys2Proof.Machine.execWrfreq c d s
  | .wrvol c d => Sys2Proof.Machine.execWrvol c d s
  | .wract c d => Sys2Proof.Machine.execWract c d s
  | .wrmute c d => Sys2Proof.Machine.execWrmute c d s
  | .wrpulse d => Sys2Proof.Machine.execWrpulse d s
  | .wrring d => Sys2Proof.Machine.execWrring d s
  | .wrnmode d => Sys2Proof.Machine.execWrnmode d s
  | .rdfreq c => Sys2Proof.Machine.execRdfreq c s
  | .rdvol c => Sys2Proof.Machine.execRdvol c s
  | .rdact c => Sys2Proof.Machine.execRdact c s
  | .rdmute c => Sys2Proof.Machine.execRdmute c s
  | .rdpulse => Sys2Proof.Machine.execRdpulse s
  | .rdring => Sys2Proof.Machine.execRdring s
  | .rdnmode => Sys2Proof.Machine.execRdnmode s
  | .rdlfsr => Sys2Proof.Machine.execRdlfsr s
  | .rdvolmax => Sys2Proof.Machine.execRdvolmax s
  | .rdcnt c => Sys2Proof.Machine.execRdcnt c s
  | .rdamp c => Sys2Proof.Machine.execRdamp c s
  | .sample => Sys2Proof.Machine.execSample s
  | .reset => Sys2Proof.Machine.execReset s

end Sys2Proof.Machine
end

