-- ==== Sys2Proof/Machine/Port.lean ====
section
/-! DEFINITION. The transaction port (00_scope.md R7 to R10): one word performed whole, with R9's outcomes, and what
the model does with a refusal. Machine/Step.lean only calls `performNext`. -/

namespace Sys2Proof.Machine

/-- One transaction (R9): the meaning of the word it decodes to, or the refusal. Before the first RESET a word that
decodes to nothing is refused as not started, like every other but RESET (R222, R251). -/
def transact (w : Txn) (s : State) : Result :=
  match decode w with
  | .ok i => exec i s
  | .error e => .refused (if s.started then refusalOf e else .notStarted)

/-- The state after one transaction: a refused one sets the mark and leaves all else as it was, and the run goes on
(R9, R32, R220, R224: 'the model sets a refusal mark'; 93: `refuse`, not `stuck`; log 3). A reason that is not the
spec's stops the machine. -/
def settle (w : Txn) (s : State) : Result :=
  match transact w s with
  | .next t => .next t
  | .fault f => .fault f
  | .refused r => if r.ofSpec then .next (recordRefusal r w s) else .refused r

/-- The host's next transaction, if it issues one more, is taken and performed (R57); with none the block holds its
state (R8, R230; log 1). -/
def performNext (s : State) : Result :=
  match s.host with
  | [] => .next s
  | w :: rest => settle w { s with host := rest }

/-- The word `w` of `nbits` bits (those above are 0) as the host's next transaction. -/
def placeNext (nbits w : Nat) (s : State) : State :=
  { s with host := BitVec.ofNat 40 (w % 2 ^ nbits) :: s.host.tail }

/-- The host's transactions `ws` in place of those waiting (R8). -/
def issue (ws : List Txn) (s : State) : State := { s with host := ws }

end Sys2Proof.Machine
end

