-- ==== Sys2Proof/Machine/Step.lean ====
section
/-! DEFINITION. One step of the machine: the host's next transaction (00_scope.md R7). The machine has no program
counter and fetches nothing (R25, R60). -/

namespace Sys2Proof.Machine

/-- One step (R7). -/
def step (s : State) : Host.Outcome State Fault Refusal := Sys2Proof.Machine.performNext s

/-- `s` with the transaction `w` the one its next step performs. -/
def State.withFetchWord (s : State) (nbits w : Nat) : State := Sys2Proof.Machine.placeNext nbits w s

end Sys2Proof.Machine
end

