-- ==== Sys2Proof/Machine/Assembler.lean ====
section
/-! DEFINITION. The assembler's notation (30_encoding.md R79, R80): operand ranges and pseudo-instructions. It names
words for the host and has no effect on the block (D29); reading the text of a line is left out (log 13). -/

namespace Sys2Proof.Machine

/-- A channel operand, 0 to 2 (R79). -/
def asmChannel (c : Nat) : Option (BitVec 2) := if c < 3 then some (BitVec.ofNat 2 c) else none

/-- A value operand as `d`: the 32-bit two's complement; outside -2^31..2^32-1 it is an assembly error (R79). -/
def asmValue (v : Int) : Option Word :=
  if -(2 ^ 31) ≤ v ∧ v ≤ 2 ^ 32 - 1 then some (BitVec.ofInt 32 v) else none

/-- The pseudo-instructions (R80). -/
inductive Pseudo where
  | noteon (c : Nat) | noteoff (c : Nat)
  | volume (c : Nat) (v : Int)
  | getvol (c : Nat) | getvolmax
  | setfreq (c : Nat) (f : Int)
  | mute (c : Nat) (b : Int)
  | pulsemode (b : Int) | ringmod (b : Int) | noisewidth (w : Int)
  | samples (n : Nat) | init
  deriving DecidableEq, Repr

/-- A line of one channel and one value. -/
def asmChannelValue (f : BitVec 2 → Word → Instr) (c : Nat) (v : Int) : Option (List Instr) :=
  match asmChannel c, asmValue v with
  | some j, some d => some [f j d]
  | _, _ => none

/-- The expansion of a pseudo-instruction; none is an assembly error (R80). -/
def expandPseudo : Pseudo → Option (List Instr)
  | .noteon c => asmChannelValue .wract c 1
  | .noteoff c => asmChannelValue .wract c 0
  | .volume c v => asmChannelValue .wrvol c v
  | .getvol c => (asmChannel c).map fun j => [.rdvol j]
  | .getvolmax => some [.rdvolmax]
  | .setfreq c f => asmChannelValue .wrfreq c f
  | .mute c b => asmChannelValue .wrmute c b
  | .pulsemode b => (asmValue b).map fun d => [.wrpulse d]
  | .ringmod b => (asmValue b).map fun d => [.wrring d]
  | .noisewidth w => (asmValue w).map fun d => [.wrnmode d]
  | .samples n => some (List.replicate n .sample)
  | .init => some [.reset]

/-- The words of a list of transactions, in order (R79). -/
def assemble (is : List Instr) : List Txn := is.map encode

end Sys2Proof.Machine
end

