-- ==== Sys2Proof/Safety.lean ====
section
/-! DEFINITION. The terms claims are made in: a run without a refusal (60_exceptions.md R224), the invariant of the
machine (R23, R24, R29, R103), frames, and the conditions of the refusal reasons (R220). -/

namespace Sys2Proof.Safety

open Sys2Proof.Machine

/-- 'no refusal recorded': the premise of a claim about a run (R224). -/
abbrev Clean (s : State) : Prop := s.refused = false

/-- The field that names a channel (R72). -/
def numberOf : Chan → BitVec 2
  | .ch0 => 0
  | .ch1 => 1
  | .ch2 => 2

/-- `amp` is 0 or `v * S` for some `v` in 0..15 (R24). -/
abbrev AmpIsLevel (S : Int) (c : Channel) : Prop := c.amp = 0 ∨ ∃ v : Fin 16, c.amp.toInt = (v.val : Int) * S

/-- A bank whose counter is at most `n` (R23) and whose amplitude is a level (R24). -/
abbrev BankOk (S : Int) (n : Nat) (c : Channel) : Prop := c.cnt.toNat ≤ n ∧ AmpIsLevel S c

/-- `1 <= lfsr <= 2^nwidth - 1` (R103): never zero, no bit set at or above the width (R29). -/
abbrev LfsrOk (k : Block) : Prop := 1 ≤ k.lfsr.toNat ∧ k.lfsr.toNat ≤ 2 ^ widthBits k.nwidth - 1

/-- The registers in their legal ranges: the pulse channel's counter at most 1027, the others' at most 255 (R23 and
its derivation), amplitudes levels (R24), the shift register legal (R103). -/
abbrev BlockOk (S : Int) (k : Block) : Prop :=
  BankOk S 1027 k.ch0 ∧ BankOk S 255 k.ch1 ∧ BankOk S 255 k.ch2 ∧ LfsrOk k

/-- The machine's invariant: legal parameters (R6) and registers in range. -/
abbrev Inv (s : State) : Prop := s.cfg.Legal ∧ BlockOk s.cfg.outputScale s.block

/-- Nothing but the block differs. -/
abbrev OnlyBlockMay (s t : State) : Prop :=
  t.started = s.started ∧ t.refusals = s.refusals ∧ t.cfg = s.cfg ∧ t.host = s.host ∧ t.responses = s.responses

/-- The four global registers are the same (R27). -/
abbrev GlobalsSame (k l : Block) : Prop :=
  l.pulse = k.pulse ∧ l.ring = k.ring ∧ l.nwidth = k.nwidth ∧ l.lfsr = k.lfsr

/-- The three banks are the same (R20). -/
abbrev BanksSame (k l : Block) : Prop := l.ch0 = k.ch0 ∧ l.ch1 = k.ch1 ∧ l.ch2 = k.ch2

/-- Nothing but the bank of channel `j` differs. -/
abbrev OnlyBankMay (j : Chan) (s t : State) : Prop :=
  OnlyBlockMay s t ∧ GlobalsSame s.block t.block ∧ ∀ i, i ≠ j → getChan i t.block = getChan i s.block

/-- The transaction answers a next state, and `P` holds of it. -/
abbrev Yields (i : Instr) (s : State) (P : State → Prop) : Prop := ∃ t, exec i s = .next t ∧ P t

/-- The transaction answers the state it found with the response `v` joined, and nothing else changed (R12, R136). -/
abbrev Responds (i : Instr) (s : State) (v : Word) : Prop :=
  exec i s = .next { s with responses := s.responses ++ [.read v] }

/-- Transactions performed in order, up to the first that is refused. -/
def execAll : List Instr → State → Host.Outcome State Fault Refusal
  | [], s => .next s
  | i :: is, s =>
    match exec i s with
    | .next t => execAll is t
    | .fault f => .fault f
    | .refused r => .refused r

/-- A transaction of kind RD (R71). -/
def isRead : Instr → Bool
  | .rdfreq _ | .rdvol _ | .rdact _ | .rdmute _ | .rdpulse | .rdring => true
  | .rdnmode | .rdlfsr | .rdvolmax | .rdcnt _ | .rdamp _ => true
  | .wrfreq _ _ | .wrvol _ _ | .wract _ _ | .wrmute _ _ | .wrpulse _ | .wrring _ | .wrnmode _ => false
  | .sample | .reset => false

/-- A transaction of kind WR (R71). -/
def isWrite : Instr → Bool
  | .wrfreq _ _ | .wrvol _ _ | .wract _ _ | .wrmute _ _ | .wrpulse _ | .wrring _ | .wrnmode _ => true
  | .rdfreq _ | .rdvol _ | .rdact _ | .rdmute _ | .rdpulse | .rdring => false
  | .rdnmode | .rdlfsr | .rdvolmax | .rdcnt _ | .rdamp _ => false
  | .sample | .reset => false

/-- `k` of a word, as a number (R70). -/
def kindNum (w : Txn) : Nat := (w.extractLsb' 38 2).toNat

/-- `a` of a word, as a number (R70). -/
def addrNum (w : Txn) : Nat := (w.extractLsb' 32 6).toNat

/-- `d` of a word (R70). -/
def dataOf (w : Txn) : Word := w.extractLsb' 0 32

/-- R220, code 2: RD, SAMPLE or RESET with `d` not 0, SAMPLE or RESET with `a` not 0. -/
abbrev BadFields (w : Txn) : Prop :=
  (kindNum w ≠ 0 ∧ dataOf w ≠ 0) ∨ ((kindNum w = 2 ∨ kindNum w = 3) ∧ addrNum w ≠ 0)

/-- R220, code 3: a WR or RD to 0x0C..0x0F, 0x1B or 0x1F. -/
abbrev NamesChannel3 (w : Txn) : Prop :=
  (kindNum w = 0 ∨ kindNum w = 1) ∧
    ((0x0C ≤ addrNum w ∧ addrNum w ≤ 0x0F) ∨ addrNum w = 0x1B ∨ addrNum w = 0x1F)

/-- R220, code 4: a WR to a read-only address, a WR or RD to 0x15..0x17 or 0x20..0x3F. -/
abbrev BadAddress (w : Txn) : Prop :=
  (kindNum w = 0 ∧ (addrNum w = 0x13 ∨ addrNum w = 0x14 ∨ (0x18 ≤ addrNum w ∧ addrNum w ≤ 0x1A) ∨
      (0x1C ≤ addrNum w ∧ addrNum w ≤ 0x1E))) ∨
    ((kindNum w = 0 ∨ kindNum w = 1) ∧ ((0x15 ≤ addrNum w ∧ addrNum w ≤ 0x17) ∨ 0x20 ≤ addrNum w))

/-- R220, code 5: WRNMODE with a width other than 3, 4, 10. -/
abbrev BadWidth (w : Txn) : Prop :=
  kindNum w = 0 ∧ addrNum w = 0x12 ∧ (dataOf w).toInt ≠ 3 ∧ (dataOf w).toInt ≠ 4 ∧ (dataOf w).toInt ≠ 10

end Sys2Proof.Safety
end

