-- ==== Sys2Proof/Certificates/Slice0/Obligations.lean ====
section
/-! DEFINITION. The statements for the provers. Each docstring names the rule of spec/ it formalises. -/

open Sys2Proof Sys2Proof.Machine Sys2Proof.Safety

/-! ### Encoding -/

/-- R75, R77: the word of a well-formed transaction decodes to that transaction, at every channel and every `d`. -/
def Obligations.EncodedTransactionDecodesToItself : Prop :=
  ∀ i : Instr, i.wellFormed = true → decode (encode i) = .ok i

/-- R77: a word that decodes names one well-formed transaction, whose word it is. -/
def Obligations.DecodedWordIsTheTransactionsOwn : Prop :=
  ∀ (w : Txn) (i : Instr), decode w = .ok i → i.wellFormed = true ∧ encode i = w

/-- R75, row by row; and every other word is reserved. -/
def Obligations.OpcodeMapIsDecodedRowByRow : Prop :=
  (∀ (j : Chan) (d : Word),
    decode ((0b0000#4 ++ numberOf j ++ 0b00#2) ++ d) = .ok (.wrfreq (numberOf j) d) ∧
    decode ((0b0000#4 ++ numberOf j ++ 0b01#2) ++ d) = .ok (.wrvol (numberOf j) d) ∧
    decode ((0b0000#4 ++ numberOf j ++ 0b10#2) ++ d) = .ok (.wract (numberOf j) d) ∧
    decode ((0b0000#4 ++ numberOf j ++ 0b11#2) ++ d) = .ok (.wrmute (numberOf j) d) ∧
    decode (0x10#8 ++ d) = .ok (.wrpulse d) ∧
    decode (0x11#8 ++ d) = .ok (.wrring d) ∧
    decode (0x12#8 ++ d) = .ok (.wrnmode d) ∧
    decode ((0b0100#4 ++ numberOf j ++ 0b00#2) ++ 0#32) = .ok (.rdfreq (numberOf j)) ∧
    decode ((0b0100#4 ++ numberOf j ++ 0b01#2) ++ 0#32) = .ok (.rdvol (numberOf j)) ∧
    decode ((0b0100#4 ++ numberOf j ++ 0b10#2) ++ 0#32) = .ok (.rdact (numberOf j)) ∧
    decode ((0b0100#4 ++ numberOf j ++ 0b11#2) ++ 0#32) = .ok (.rdmute (numberOf j)) ∧
    decode (0x50#8 ++ 0#32) = .ok .rdpulse ∧
    decode (0x51#8 ++ 0#32) = .ok .rdring ∧
    decode (0x52#8 ++ 0#32) = .ok .rdnmode ∧
    decode (0x53#8 ++ 0#32) = .ok .rdlfsr ∧
    decode (0x54#8 ++ 0#32) = .ok .rdvolmax ∧
    decode ((0b010110#6 ++ numberOf j) ++ 0#32) = .ok (.rdcnt (numberOf j)) ∧
    decode ((0b010111#6 ++ numberOf j) ++ 0#32) = .ok (.rdamp (numberOf j)) ∧
    decode (0x80#8 ++ 0#32) = .ok .sample ∧
    decode (0xC0#8 ++ 0#32) = .ok .reset) ∧
  (∀ w : Txn, (w.extractLsb' 32 8).toNat ∉
      [0x00, 0x04, 0x08, 0x01, 0x05, 0x09, 0x02, 0x06, 0x0A, 0x03, 0x07, 0x0B, 0x10, 0x11, 0x12,
        0x40, 0x44, 0x48, 0x41, 0x45, 0x49, 0x42, 0x46, 0x4A, 0x43, 0x47, 0x4B, 0x50, 0x51, 0x52, 0x53, 0x54,
        0x58, 0x59, 0x5A, 0x5C, 0x5D, 0x5E, 0x80, 0xC0] →
    ∃ e, decode w = .error e) ∧
  (∀ w : Txn, kindNum w ≠ 0 → dataOf w ≠ 0 → ∃ e, decode w = .error e) ∧
  (∀ (d : Word) (s : State), s.started = true → d.toInt ≠ 3 → d.toInt ≠ 4 → d.toInt ≠ 10 →
    exec (.wrnmode d) s = .refused .noiseWidthNotLegal)

/-- Words the spec writes out (95_test_vectors.md sections 1 to 3), a few per kind. -/
def Obligations.WordsOfTheSpecDecode : Prop :=
  decode 0x040000012C = .ok (.wrfreq 1 300) ∧ decode 0x05FFFFFFFF = .ok (.wrvol 1 (-1)) ∧
  decode 0x0A80000000 = .ok (.wract 2 0x80000000) ∧ decode 0x0700000005 = .ok (.wrmute 1 5) ∧
  decode 0x1200000003 = .ok (.wrnmode 3) ∧ decode 0x5A00000000 = .ok (.rdcnt 2) ∧
  decode 0x5E00000000 = .ok (.rdamp 2) ∧ decode 0x8000000000 = .ok .sample ∧
  decode 0xC000000000 = .ok .reset ∧ decode 0x4C00000001 = .error .reservedEncoding ∧
  decode 0x5B00000000 = .error .noSuchChannel ∧ decode 0x1E00000000 = .error .reservedAddress

/-! ### The port -/

/-- R7, R57, R220: a step performs the host's next transaction, which the decoder reads, on the state without it; a
refusal of the spec's is recorded with its word, and nothing else changes (the mark in a next state: log 3). -/
def Obligations.StepPerformsTheDecodedTransaction : Prop :=
  ∀ (s : State) (w : Txn) (rest : List Txn) (i : Instr), s.host = w :: rest → decode w = .ok i →
    (∀ t, exec i { s with host := rest } = .next t → step s = .next t) ∧
    (∀ r, exec i { s with host := rest } = .refused r → r.ofSpec = true →
      step s = .next { s with host := rest, refusals := s.refusals ++ [⟨r, w⟩] })

/-- R220, R76: a word that decodes to nothing is recorded as refused, and nothing else changes (log 3). Before the first
RESET the reason recorded is NotStarted, the first of R222's order (R251; log 11, DEDUCED). -/
def Obligations.StepRecordsAnUndecodableWord : Prop :=
  ∀ (s : State) (w : Txn) (rest : List Txn) (e : DecodeError), s.host = w :: rest → decode w = .error e →
    step s = .next { s with
      host := rest
      refusals := s.refusals ++ [⟨if s.started then refusalOf e else .notStarted, w⟩] }

/-- The model's choice (log 1), after R8 and R230: with no transaction left the state is held. -/
def Obligations.StepHoldsWhenNoTransactionIsLeft : Prop :=
  ∀ s : State, s.host = [] → step s = .next s

/-- R8 ('the block never stops on its own, never waits and never hangs') with R9's mark as log 3 reads it: every state
has a next one. The case of an empty host list is the model's choice (log 1): R8 ends the run there. -/
def Obligations.EveryStepAnswersANextState : Prop :=
  ∀ s : State, ∃ t, step s = .next t

/-- R222, with the conditions of R220's table: the reason is the first that applies, and where none applies the
transaction is performed. -/
def Obligations.FirstApplicableReasonIsReported : Prop :=
  ∀ (w : Txn) (s : State),
    if s.started = false ∧ w ≠ 0xC000000000 then transact w s = .refused .notStarted
    else if BadFields w then transact w s = .refused .reservedEncoding
    else if NamesChannel3 w then transact w s = .refused .noSuchChannel
    else if BadAddress w then transact w s = .refused .reservedAddress
    else if BadWidth w then transact w s = .refused .noiseWidthNotLegal
    else ∃ t, transact w s = .next t

/-- R32 ('never cleared'), R6, R8, R57: a step keeps the parameters, takes the waiting transaction, and only adds to the
refusals and the responses (the two lists: logs 3, 7); a machine that has started stays started. With no transaction
waiting the state is held, which is the model's choice (log 1). -/
def Obligations.StepOnlyAddsToTheRecord : Prop :=
  ∀ s t : State, step s = .next t →
    t.cfg = s.cfg ∧ t.host = s.host.tail ∧ s.refusals <+: t.refusals ∧ s.responses <+: t.responses ∧
      (s.refused = true → t.refused = true) ∧ (s.started = true → t.started = true)

/-- R8, R220, R223: one response for an RD or a SAMPLE, none for a WR or a RESET; a refused transaction gives none and
leaves the block. -/
def Obligations.ResponsesFollowTheKind : Prop :=
  ∀ (s t : State) (w : Txn) (rest : List Txn), s.host = w :: rest → step s = .next t →
    (t.refusals = s.refusals →
      (kindNum w = 0 ∨ kindNum w = 3 → t.responses = s.responses) ∧
      (kindNum w = 1 → t.block = s.block ∧ ∃ v, t.responses = s.responses ++ [.read v]) ∧
      (kindNum w = 2 → ∃ y a b c, t.responses = s.responses ++ [.sample y a b c])) ∧
    (t.refusals ≠ s.refusals →
      t.block = s.block ∧ t.started = s.started ∧ t.responses = s.responses ∧
        ∃ r, t.refusals = s.refusals ++ [⟨r, w⟩])

/-! ### Reset -/

/-- R251: before the first RESET every word but RESET's is refused, and what the registers held reaches nothing. -/
def Obligations.OnlyResetIsAcceptedBeforeTheFirstReset : Prop :=
  ∀ s : State, s.started = false →
    (∀ w : Txn, w ≠ 0xC000000000 → transact w s = .refused .notStarted) ∧
    (∃ t, transact 0xC000000000 s = .next t ∧ t.started = true) ∧
    (∀ k : Block, transact 0xC000000000 { s with block := k } = transact 0xC000000000 s)

/-- R250, R33: RESET in any state, before the first one too, leaves every register at its reset value, keeps the
refusal record, gives no response, and a second RESET leaves what the first did; RDVOLMAX then responds 15. -/
def Obligations.ResetLeavesTheResetValues : Prop :=
  ∀ s : State,
    decode 0xC000000000 = .ok .reset ∧
    (∀ w : Txn, kindNum w = 3 → addrNum w ≠ 0 ∨ dataOf w ≠ 0 → s.started = true →
      transact w s = .refused .reservedEncoding) ∧
    Yields .reset s fun t =>
      (∀ j, (getChan j t.block).active = false ∧ (getChan j t.block).vol = s.cfg.resetVol ∧
        (getChan j t.block).freq = 0 ∧ (getChan j t.block).muted = false ∧
        (getChan j t.block).cnt = 0 ∧ (getChan j t.block).amp = 0) ∧
      t.block.pulse = false ∧ t.block.ring = false ∧ widthBits t.block.nwidth = 10 ∧ t.block.lfsr = 0x3FF ∧
      t.started = true ∧ t.refusals = s.refusals ∧ t.cfg = s.cfg ∧ t.host = s.host ∧ t.responses = s.responses ∧
      exec .reset t = .next t ∧ Responds .rdvolmax t 15

/-- R32, R33 and logs 1, 2, 6, 7: the machine at power-on is not started; given a RESET it becomes `State.reset`,
where nothing is refused, waiting or observed and RESET_VOL is 15. -/
def Obligations.PowerOnThenResetIsTheResetState : Prop :=
  State.powerOn.started = false ∧
  step (issue [0xC000000000] State.powerOn) = .next State.reset ∧
  State.reset.refused = false ∧ State.reset.host = [] ∧ State.reset.responses = [] ∧
  State.reset.cfg.resetVol = 15

/-- R6, R23, R24, R103 at reset; and at power-on, where R32 says the registers hold no value and the values they have in
`State.powerOn` are the model's choice (log 8). -/
def Obligations.InvariantHoldsAtReset : Prop := Inv State.reset ∧ Inv State.powerOn

/-- R23, R24, R29, R103: every step keeps the counters, amplitudes and shift register in range. -/
def Obligations.EveryStepKeepsTheInvariant : Prop :=
  ∀ s t : State, Inv s → step s = .next t → Inv t

/-! ### Writes -/

/-- R120: WRFREQ saturates to 0..255 and changes nothing else. -/
def Obligations.WriteFrequencySaturates : Prop :=
  ∀ (j : Chan) (d : Word) (s : State), s.started = true →
    decode ((0b0000#4 ++ numberOf j ++ 0b00#2) ++ d) = .ok (.wrfreq (numberOf j) d) ∧
    exec (.wrfreq 3 d) s = .refused .noSuchChannel ∧
    Yields (.wrfreq (numberOf j) d) s fun t =>
      ((getChan j t.block).freq.toNat : Int) = min (max d.toInt 0) 255 ∧
      getChan j t.block = { getChan j s.block with freq := (getChan j t.block).freq } ∧ OnlyBankMay j s t

/-- R121: WRVOL saturates to 0..15 and changes nothing else; the spec's example. -/
def Obligations.WriteVolumeSaturates : Prop :=
  ∀ (j : Chan) (d : Word) (s : State), s.started = true →
    decode ((0b0000#4 ++ numberOf j ++ 0b01#2) ++ d) = .ok (.wrvol (numberOf j) d) ∧
    exec (.wrvol 3 d) s = .refused .noSuchChannel ∧
    (Yields (.wrvol (numberOf j) d) s fun t =>
      ((getChan j t.block).vol.toNat : Int) = min (max d.toInt 0) 15 ∧
      getChan j t.block = { getChan j s.block with vol := (getChan j t.block).vol } ∧ OnlyBankMay j s t) ∧
    (Yields (.wrvol 0 99) s fun t => Responds (.rdvol 0) t 15)

/-- R122: WRACT stores the nonzero test of its operand and changes nothing else. -/
def Obligations.WriteActiveStoresTheNonzeroTest : Prop :=
  ∀ (j : Chan) (d : Word) (s : State), s.started = true →
    decode ((0b0000#4 ++ numberOf j ++ 0b10#2) ++ d) = .ok (.wract (numberOf j) d) ∧
    exec (.wract 3 d) s = .refused .noSuchChannel ∧
    Yields (.wract (numberOf j) d) s fun t =>
      ((getChan j t.block).active = true ↔ d ≠ 0) ∧
      getChan j t.block = { getChan j s.block with active := (getChan j t.block).active } ∧ OnlyBankMay j s t

/-- R123: WRMUTE stores the nonzero test of its operand and changes nothing else. -/
def Obligations.WriteMutedStoresTheNonzeroTest : Prop :=
  ∀ (j : Chan) (d : Word) (s : State), s.started = true →
    decode ((0b0000#4 ++ numberOf j ++ 0b11#2) ++ d) = .ok (.wrmute (numberOf j) d) ∧
    exec (.wrmute 3 d) s = .refused .noSuchChannel ∧
    Yields (.wrmute (numberOf j) d) s fun t =>
      ((getChan j t.block).muted = true ↔ d ≠ 0) ∧
      getChan j t.block = { getChan j s.block with muted := (getChan j t.block).muted } ∧ OnlyBankMay j s t

/-- R124: WRPULSE sets `pulse` from its operand; no channel state changes. -/
def Obligations.WritePulseSetsThePulseBitAlone : Prop :=
  ∀ (d : Word) (s : State), s.started = true →
    decode (0x10#8 ++ d) = .ok (.wrpulse d) ∧
    Yields (.wrpulse d) s fun t =>
      (t.block.pulse = true ↔ d ≠ 0) ∧ t.block.ring = s.block.ring ∧ t.block.nwidth = s.block.nwidth ∧
      t.block.lfsr = s.block.lfsr ∧ BanksSame s.block t.block ∧ OnlyBlockMay s t

/-- R125: WRRING sets `ring` from its operand; no channel state changes. -/
def Obligations.WriteRingSetsTheRingBitAlone : Prop :=
  ∀ (d : Word) (s : State), s.started = true →
    decode (0x11#8 ++ d) = .ok (.wrring d) ∧
    Yields (.wrring d) s fun t =>
      (t.block.ring = true ↔ d ≠ 0) ∧ t.block.pulse = s.block.pulse ∧ t.block.nwidth = s.block.nwidth ∧
      t.block.lfsr = s.block.lfsr ∧ BanksSame s.block t.block ∧ OnlyBlockMay s t

/-- R100, R254: WRNMODE with a legal width sets it and reseeds the register to all-ones of that width, whatever both
were, and changes nothing else; any other width is refused. -/
def Obligations.WriteNoiseModeReseeds : Prop :=
  ∀ (d : Word) (s : State), s.started = true →
    decode (0x12#8 ++ d) = .ok (.wrnmode d) ∧
    (d.toInt = 3 ∨ d.toInt = 4 ∨ d.toInt = 10 →
      Yields (.wrnmode d) s fun t =>
        (widthBits t.block.nwidth : Int) = d.toInt ∧
        t.block.lfsr.toNat = 2 ^ widthBits t.block.nwidth - 1 ∧
        t.block.pulse = s.block.pulse ∧ t.block.ring = s.block.ring ∧
        BanksSame s.block t.block ∧ OnlyBlockMay s t) ∧
    (d.toInt ≠ 3 ∧ d.toInt ≠ 4 ∧ d.toInt ≠ 10 → exec (.wrnmode d) s = .refused .noiseWidthNotLegal)

/-- R55: every WR performed twice leaves what performing it once leaves. -/
def Obligations.WritesAreIdempotent : Prop :=
  ∀ (i : Instr) (s t : State), isWrite i = true → exec i s = .next t → exec i t = .next t

/-! ### Reads -/

/-- R126 to R129: the channel reads respond with the register zero-extended, with the rules' examples. -/
def Obligations.ChannelReadsRespondWithTheRegister : Prop :=
  ∀ (j : Chan) (s : State), s.started = true →
    decode ((0b0100#4 ++ numberOf j ++ 0b00#2) ++ 0#32) = .ok (.rdfreq (numberOf j)) ∧
    decode ((0b0100#4 ++ numberOf j ++ 0b01#2) ++ 0#32) = .ok (.rdvol (numberOf j)) ∧
    decode ((0b0100#4 ++ numberOf j ++ 0b10#2) ++ 0#32) = .ok (.rdact (numberOf j)) ∧
    decode ((0b0100#4 ++ numberOf j ++ 0b11#2) ++ 0#32) = .ok (.rdmute (numberOf j)) ∧
    exec (.rdfreq 3) s = .refused .noSuchChannel ∧ exec (.rdvol 3) s = .refused .noSuchChannel ∧
    exec (.rdact 3) s = .refused .noSuchChannel ∧ exec (.rdmute 3) s = .refused .noSuchChannel ∧
    (∃ v : Word, v.toNat = (getChan j s.block).freq.toNat ∧ v.toNat ≤ 255 ∧ Responds (.rdfreq (numberOf j)) s v) ∧
    (∃ v : Word, v.toNat = (getChan j s.block).vol.toNat ∧ Responds (.rdvol (numberOf j)) s v) ∧
    (∃ v : Word, v.toNat = (getChan j s.block).active.toNat ∧ Responds (.rdact (numberOf j)) s v) ∧
    (∃ v : Word, v.toNat = (getChan j s.block).muted.toNat ∧ Responds (.rdmute (numberOf j)) s v) ∧
    (Yields (.wrfreq 0 300) s fun t => Responds (.rdfreq 0) t 0xFF) ∧
    (Yields (.wrvol 2 (-1)) s fun t => Responds (.rdvol 2) t 0) ∧
    (Yields (.wrmute 1 5) s fun t => Responds (.rdmute 1) t 1) ∧
    (Yields .reset s fun t =>
      Responds (.rdvol (numberOf j)) t (s.cfg.resetVol.setWidth 32) ∧ Responds (.rdact (numberOf j)) t 0)

/-- R130 to R132, R101, R106: the global reads, with the rules' examples, and their refusals. -/
def Obligations.GlobalReadsRespondWithTheRegister : Prop :=
  ∀ s : State, s.started = true →
    decode 0x5000000000 = .ok .rdpulse ∧ decode 0x5100000000 = .ok .rdring ∧ decode 0x5200000000 = .ok .rdnmode ∧
    decode 0x5300000000 = .ok .rdlfsr ∧ decode 0x5400000000 = .ok .rdvolmax ∧
    (∃ v : Word, v.toNat = s.block.pulse.toNat ∧ Responds .rdpulse s v) ∧
    (∃ v : Word, v.toNat = s.block.ring.toNat ∧ Responds .rdring s v) ∧
    (∃ v : Word, v.toNat = widthBits s.block.nwidth ∧ Responds .rdnmode s v) ∧
    (∃ v : Word, v.toNat = s.block.lfsr.toNat ∧ (Inv s → 1 ≤ v.toNat ∧ v.toNat ≤ 2 ^ widthBits s.block.nwidth - 1) ∧
      Responds .rdlfsr s v) ∧
    (∀ w : Txn, kindNum w = 1 → dataOf w ≠ 0 → transact w s = .refused .reservedEncoding) ∧
    (∀ d : Word, transact (0x13#8 ++ d) s = .refused .reservedAddress) ∧
    Responds .rdvolmax s 15 ∧
    (Yields .reset s fun t =>
      Responds .rdpulse t 0 ∧ Responds .rdnmode t 10 ∧ Responds .rdlfsr t 0x3FF) ∧
    (Yields (.wrring 2) s fun t => Responds .rdring t 1) ∧
    (Yields (.wrnmode 4) s fun t => Responds .rdnmode t 4)

/-- R133, R134: the diagnostic reads; RDAMP gives the held amplitude whether or not the channel sounds. -/
def Obligations.DiagnosticReadsShowTheHiddenState : Prop :=
  ∀ (j : Chan) (s : State), s.started = true →
    decode ((0b010110#6 ++ numberOf j) ++ 0#32) = .ok (.rdcnt (numberOf j)) ∧
    decode ((0b010111#6 ++ numberOf j) ++ 0#32) = .ok (.rdamp (numberOf j)) ∧
    exec (.rdcnt 3) s = .refused .noSuchChannel ∧ exec (.rdamp 3) s = .refused .noSuchChannel ∧
    (∃ v : Word, v.toNat = (getChan j s.block).cnt.toNat ∧ (Inv s → v.toNat ≤ 1027) ∧
      Responds (.rdcnt (numberOf j)) s v) ∧
    (∃ v : Word, v.toInt = (getChan j s.block).amp.toInt ∧ Responds (.rdamp (numberOf j)) s v ∧
      ((getChan j s.block).amp.toInt = -15 → v = 0xFFFFFFF1)) ∧
    (Yields .reset s fun t => Responds (.rdcnt (numberOf j)) t 0)

/-- R121, R127 with §8's clamping property, and the same for `freq` (95_test_vectors.md L1-1): a written value reads
back saturated, on every channel. -/
def Obligations.WrittenValuesReadBackSaturated : Prop :=
  ∀ (j : Chan) (d : Word) (s : State), s.started = true →
    (Yields (.wrvol (numberOf j) d) s fun t =>
      ∃ v : Word, v.toInt = min (max d.toInt 0) 15 ∧ Responds (.rdvol (numberOf j)) t v) ∧
    (Yields (.wrfreq (numberOf j) d) s fun t =>
      ∃ v : Word, v.toInt = min (max d.toInt 0) 255 ∧ Responds (.rdfreq (numberOf j)) t v)

/-- R136: no RD changes any state, and with only RDs between, two RDs of one register respond the same value. -/
def Obligations.ReadsChangeNothingAndRepeat : Prop :=
  (∀ (i : Instr) (s t : State), isRead i = true → exec i s = .next t →
    t.block = s.block ∧ t.started = s.started ∧ t.refusals = s.refusals ∧ t.cfg = s.cfg ∧ t.host = s.host) ∧
  (∀ (i : Instr) (between : List Instr) (s t : State) (v : Word),
    (∀ k ∈ between, isRead k = true) → isRead i = true → Responds i s v → execAll between s = .next t →
    Responds i t v)

/-! ### Who writes what -/

/-- R26: `active`, `muted`, `pulse` and `ring` are each changed by their own write alone, or by RESET. -/
def Obligations.EachFlagHasOneWriter : Prop :=
  ∀ (i : Instr) (s t : State), exec i s = .next t → i ≠ .reset →
    (t.block.pulse ≠ s.block.pulse → ∃ d, i = .wrpulse d) ∧
    (t.block.ring ≠ s.block.ring → ∃ d, i = .wrring d) ∧
    (∀ j, (getChan j t.block).active ≠ (getChan j s.block).active → ∃ d, i = .wract (numberOf j) d) ∧
    (∀ j, (getChan j t.block).muted ≠ (getChan j s.block).muted → ∃ d, i = .wrmute (numberOf j) d)

/-- R20, R30: `freq` and `vol` are changed by their own write alone, `cnt` and `amp` by a SAMPLE in which their
channel sounds, or by RESET; `nwidth` by WRNMODE, `lfsr` by WRNMODE and SAMPLE, or by RESET. -/
def Obligations.EachRegisterHasItsWriters : Prop :=
  ∀ (i : Instr) (s t : State), exec i s = .next t → i ≠ .reset →
    (∀ j, (getChan j t.block).freq ≠ (getChan j s.block).freq → ∃ d, i = .wrfreq (numberOf j) d) ∧
    (∀ j, (getChan j t.block).vol ≠ (getChan j s.block).vol → ∃ d, i = .wrvol (numberOf j) d) ∧
    (∀ j, (getChan j t.block).cnt ≠ (getChan j s.block).cnt ∨ (getChan j t.block).amp ≠ (getChan j s.block).amp →
      i = .sample ∧ (getChan j s.block).active = true ∧ (getChan j s.block).muted = false) ∧
    (t.block.nwidth ≠ s.block.nwidth → ∃ d, i = .wrnmode d) ∧
    (t.block.lfsr ≠ s.block.lfsr → i = .sample ∨ ∃ d, i = .wrnmode d)

/-! ### SAMPLE -/

/-- R190 to R194: the response is the clamped mix of the channels' outputs and their doubled oscilloscope values, where
a channel's output is its amplitude after the sample if it is active and not muted, else 0; everything but counters,
amplitudes and the shift register is unchanged. -/
def Obligations.SampleRespondsWithTheClampedMix : Prop :=
  ∀ s : State, s.started = true → Inv s →
    decode 0x8000000000 = .ok .sample ∧
    (∀ w : Txn, kindNum w = 2 → addrNum w ≠ 0 ∨ dataOf w ≠ 0 → transact w s = .refused .reservedEncoding) ∧
    Yields .sample s fun t =>
      let out (j : Chan) : Int :=
        if (getChan j s.block).active = true ∧ (getChan j s.block).muted = false then (getChan j t.block).amp.toInt
        else 0
      (∃ (y : BitVec 16) (osc0 osc1 osc2 : BitVec 32),
        t.responses = s.responses ++ [.sample y osc0 osc1 osc2] ∧
        y.toInt = min (max (if s.block.ring = true then out .ch0 * out .ch1 + out .ch2
          else out .ch0 + out .ch1 + out .ch2) (-32768)) 32767 ∧
        osc0.toInt = 2 * out .ch0 ∧ osc1.toInt = 2 * out .ch1 ∧ osc2.toInt = 2 * out .ch2) ∧
      t.started = s.started ∧ t.refusals = s.refusals ∧ t.cfg = s.cfg ∧ t.host = s.host ∧
      t.block.pulse = s.block.pulse ∧ t.block.ring = s.block.ring ∧ t.block.nwidth = s.block.nwidth ∧
      ∀ j, getChan j t.block =
        { getChan j s.block with cnt := (getChan j t.block).cnt, amp := (getChan j t.block).amp }

/-- R160: a channel that is inactive or muted is frozen by SAMPLE, the shift register with channel 2, and its
oscilloscope value is 0. -/
def Obligations.GatedOutChannelIsFrozenAndSilent : Prop :=
  ∀ (j : Chan) (s : State), s.started = true →
    (getChan j s.block).active = false ∨ (getChan j s.block).muted = true →
    Yields .sample s fun t =>
      getChan j t.block = getChan j s.block ∧ (j = .ch2 → t.block.lfsr = s.block.lfsr) ∧
      ∃ (y : BitVec 16) (osc0 osc1 osc2 : BitVec 32),
        t.responses = s.responses ++ [.sample y osc0 osc1 osc2] ∧
        (match j with | .ch0 => osc0 | .ch1 => osc1 | .ch2 => osc2) = 0

/-- R163, R161: the square channels, channel 1 and (with `pulse` 0) channel 0, count to `freq` and toggle. -/
def Obligations.SquareChannelCountsAndToggles : Prop :=
  ∀ (j : Chan) (s : State), s.started = true → Inv s → j = .ch1 ∨ (j = .ch0 ∧ s.block.pulse = false) →
    (getChan j s.block).active = true → (getChan j s.block).muted = false →
    Yields .sample s fun t =>
      let c := getChan j s.block
      let c' := getChan j t.block
      (c.cnt.toNat + 1 > c.freq.toNat →
        c'.cnt = 0 ∧ c'.amp.toInt = if c.amp.toInt = 0 then c.vol.toNat * s.cfg.outputScale else 0) ∧
      (c.cnt.toNat + 1 ≤ c.freq.toNat → c'.cnt.toNat = c.cnt.toNat + 1 ∧ c'.amp = c.amp) ∧
      c'.cnt.toNat ≤ c.freq.toNat

/-- R164, R161: channel 0 with `pulse` 1 counts a cycle of 4(f+2) and is high on counts 0 to f. -/
def Obligations.PulseChannelFollowsItsCycle : Prop :=
  ∀ s : State, s.started = true → Inv s → s.block.pulse = true →
    s.block.ch0.active = true → s.block.ch0.muted = false →
    Yields .sample s fun t =>
      let c := s.block.ch0
      let c' := t.block.ch0
      let L := 4 * (c.freq.toNat + 2)
      (c.cnt.toNat + 1 ≥ L → c'.cnt = 0) ∧
      (c.cnt.toNat + 1 < L → c'.cnt.toNat = c.cnt.toNat + 1) ∧
      (c'.amp.toInt = if c'.cnt.toNat ≤ c.freq.toNat then c.vol.toNat * s.cfg.outputScale else 0) ∧
      c'.cnt.toNat < L ∧ L ≤ 1028

/-- R165, R161: channel 2 counts to `freq`; on a wrap the LFSR steps once and its bit gates the amplitude. -/
def Obligations.NoiseChannelStepsTheLfsrOnAWrap : Prop :=
  ∀ s : State, s.started = true → Inv s → s.block.ch2.active = true → s.block.ch2.muted = false →
    Yields .sample s fun t =>
      let c := s.block.ch2
      let c' := t.block.ch2
      (c.cnt.toNat + 1 > c.freq.toNat →
        c'.cnt = 0 ∧ t.block.lfsr = lfsrStep s.block.nwidth s.block.lfsr ∧
        c'.amp.toInt = (t.block.lfsr.toNat % 2 : Nat) * c.vol.toNat * s.cfg.outputScale) ∧
      (c.cnt.toNat + 1 ≤ c.freq.toNat →
        c'.cnt.toNat = c.cnt.toNat + 1 ∧ t.block.lfsr = s.block.lfsr ∧ c'.amp = c.amp)

/-- R162: gates of different channels commute, in what they leave and in what they give out; only channel 2's touches
the shift register. -/
def Obligations.GateOrderIsNotObservable : Prop :=
  ∀ (S : Int) (i j : Chan) (k : Block), i ≠ j →
    gate S i (gate S j k) = gate S j (gate S i k) ∧ gateOut S i (gate S j k) = gateOut S i k ∧
      (i ≠ .ch2 → (gate S i k).lfsr = k.lfsr)

/-- R190's corner case, R252: while no channel sounds a SAMPLE responds (0, 0, 0, 0) and changes no state. -/
def Obligations.SilentBlockSamplesZero : Prop :=
  ∀ s : State, s.started = true →
    (∀ j, (getChan j s.block).active = false ∨ (getChan j s.block).muted = true) →
    exec .sample s = .next { s with responses := s.responses ++ [.sample 0 0 0 0] }

/-- R258: with `ring` 1, a channel 0 or 1 that is inactive, muted or low leaves the noise channel alone in the mix. -/
def Obligations.RingSilencesBothTones : Prop :=
  ∀ s : State, s.started = true → Inv s → s.block.ring = true →
    Yields .sample s fun t =>
      let sounds (c : Channel) : Prop := c.active = true ∧ c.muted = false
      (¬sounds s.block.ch0 ∨ ¬sounds s.block.ch1 ∨ t.block.ch0.amp = 0 ∨ t.block.ch1.amp = 0) →
      ∃ (y : BitVec 16) (osc0 osc1 osc2 : BitVec 32),
        t.responses = s.responses ++ [.sample y osc0 osc1 osc2] ∧
        y.toInt = min (max (if s.block.ch2.active = true ∧ s.block.ch2.muted = false
          then t.block.ch2.amp.toInt else 0) (-32768)) 32767

/-! ### The shift register -/

/-- R102: the step of each width, in numbers, and that no transaction but SAMPLE steps the register. -/
def Obligations.LfsrStepsByItsTaps : Prop :=
  (∀ l : BitVec 10,
    ((lfsrStep .w10 l).toNat = (2 * l.toNat + (l.getLsbD 9 ^^ l.getLsbD 6).toNat) % 2 ^ 10) ∧
    ((lfsrStep .w4 l).toNat = (2 * l.toNat + (l.getLsbD 3 ^^ l.getLsbD 2).toNat) % 2 ^ 4) ∧
    ((lfsrStep .w3 l).toNat = (2 * l.toNat + (l.getLsbD 2 ^^ l.getLsbD 1).toNat) % 2 ^ 3) ∧
    ∀ w, lfsrBit w l = (lfsrStep w l).getLsbD 0) ∧
  (∀ (i : Instr) (s t : State), exec i s = .next t → i ≠ .sample → i ≠ .reset → (∀ d, i ≠ .wrnmode d) →
    t.block.lfsr = s.block.lfsr)

/-- R105: the returned bit is the feedback, and the first 20 bits from all-ones. -/
def Obligations.LfsrBitSequences : Prop :=
  (∀ l : BitVec 10, lfsrBit .w10 l = (l.getLsbD 9 ^^ l.getLsbD 6) ∧ lfsrBit .w4 l = (l.getLsbD 3 ^^ l.getLsbD 2) ∧
    lfsrBit .w3 l = (l.getLsbD 2 ^^ l.getLsbD 1) ∧ ∀ w, (lfsrStep w l).getLsbD 0 = lfsrBit w l) ∧
  ((List.range 20).map fun n => (lfsrBit .w3 ((lfsrStep .w3)^[n] 0x7)).toNat) =
    [0, 0, 1, 0, 1, 1, 1, 0, 0, 1, 0, 1, 1, 1, 0, 0, 1, 0, 1, 1] ∧
  ((List.range 20).map fun n => (lfsrBit .w4 ((lfsrStep .w4)^[n] 0xF)).toNat) =
    [0, 0, 0, 1, 0, 0, 1, 1, 0, 1, 0, 1, 1, 1, 1, 0, 0, 0, 1, 0] ∧
  ((List.range 20).map fun n => (lfsrBit .w10 ((lfsrStep .w10)^[n] 0x3FF)).toNat) =
    [0, 0, 0, 0, 0, 0, 0, 1, 1, 1, 0, 0, 0, 0, 1, 1, 1, 1, 1, 1]

/-- R104: from all-ones the register returns to all-ones after 2^w - 1 steps and not before, having visited every
nonzero state of the width. -/
def Obligations.LfsrVisitsEveryNonzeroState : Prop :=
  ∀ w : NoiseWidth,
    (lfsrStep w)^[2 ^ widthBits w - 1] (widthMask w) = widthMask w ∧
    (∀ n, 0 < n → n < 2 ^ widthBits w - 1 → (lfsrStep w)^[n] (widthMask w) ≠ widthMask w) ∧
    ∀ l : BitVec 10, 1 ≤ l.toNat → l.toNat ≤ 2 ^ widthBits w - 1 →
      ∃ n, n < 2 ^ widthBits w - 1 ∧ (lfsrStep w)^[n] (widthMask w) = l

/-! ### Waveforms -/

/-- R166: a square channel held at constant settings from `cnt` 0, `amp` 0 is 0 for f samples, then alternates V*S and
0 every f+1 samples; every 2(f+1) consecutive samples after the first f hold f+1 high ones. -/
def Obligations.SquareWavePeriod : Prop :=
  ∀ (j : Chan) (s : State), s.started = true → s.cfg.Legal → j = .ch1 ∨ (j = .ch0 ∧ s.block.pulse = false) →
    (getChan j s.block).active = true → (getChan j s.block).muted = false →
    (getChan j s.block).cnt = 0 → (getChan j s.block).amp = 0 →
    (getChan j s.block).vol.toNat * s.cfg.outputScale ≠ 0 →
    let f := (getChan j s.block).freq.toNat
    ∃ out : Nat → Int,
      (∀ n, ∃ t, execAll (List.replicate n .sample) s = .next t ∧ (getChan j t.block).amp.toInt = out n) ∧
      (∀ n, n ≤ f → out n = 0) ∧
      (∀ n, out n = 0 ∨ out n = (getChan j s.block).vol.toNat * s.cfg.outputScale) ∧
      (∀ n, out (n + (f + 1)) = (getChan j s.block).vol.toNat * s.cfg.outputScale - out n) ∧
      (∀ m, f < m → (List.range (2 * (f + 1))).countP (fun i => out (m + i) != 0) = f + 1)

/-- R167: in any 4(f+2) consecutive pulse updates f+1 are high and 3f+7 low. -/
def Obligations.PulseWaveDuty : Prop :=
  ∀ (S : Int) (c : Channel), -(2 ^ 26) ≤ S → S ≤ 2 ^ 26 → c.cnt.toNat < 4 * (c.freq.toNat + 2) →
    (∀ n, ((pulseUpdate S)^[n + 1] c).amp.toInt =
      if ((pulseUpdate S)^[n + 1] c).cnt.toNat ≤ c.freq.toNat then c.vol.toNat * S else 0) ∧
    (List.range (4 * (c.freq.toNat + 2))).countP
      (fun n => decide (((pulseUpdate S)^[n + 1] c).cnt.toNat ≤ c.freq.toNat)) = c.freq.toNat + 1 ∧
    (List.range (4 * (c.freq.toNat + 2))).countP
      (fun n => decide (c.freq.toNat < ((pulseUpdate S)^[n + 1] c).cnt.toNat)) = 3 * c.freq.toNat + 7

/-- R168 for a start at `cnt` 0 and `amp` 0: the noise channel steps the LFSR once every f+1 samples and holds each level
for f+1 samples. Other starts are covered one sample at a time by `NoiseChannelStepsTheLfsrOnAWrap`. -/
def Obligations.NoiseRate : Prop :=
  ∀ s : State, s.started = true → s.cfg.Legal → s.block.ch2.active = true → s.block.ch2.muted = false →
    s.block.ch2.cnt = 0 → s.block.ch2.amp = 0 →
    ∀ n, ∃ t, execAll (List.replicate n .sample) s = .next t ∧
      t.block.lfsr = (lfsrStep s.block.nwidth)^[n / (s.block.ch2.freq.toNat + 1)] s.block.lfsr ∧
      t.block.ch2.amp.toInt =
        if n ≤ s.block.ch2.freq.toNat then 0
        else (t.block.lfsr.toNat % 2 : Nat) * s.block.ch2.vol.toNat * s.cfg.outputScale

/-- R169: samples in which a channel is gated out leave its bank (and, for channel 2, the shift register), and
whatever transactions follow, the channel stands as if those samples had not happened. -/
def Obligations.GatedOutSamplesMightNotHaveHappened : Prop :=
  ∀ (j : Chan) (n : Nat) (s : State), s.started = true →
    (getChan j s.block).active = false ∨ (getChan j s.block).muted = true →
    ∃ t, execAll (List.replicate n .sample) s = .next t ∧ getChan j t.block = getChan j s.block ∧
      (j = .ch2 → t.block.lfsr = s.block.lfsr) ∧
      ∀ (is : List Instr) (s' : State), execAll is s = .next s' →
        ∃ t', execAll is t = .next t' ∧ getChan j t'.block = getChan j s'.block ∧
          (j = .ch2 → t'.block.lfsr = s'.block.lfsr)

/-- R170: a WRFREQ keeps the counter, and the next SAMPLE compares it with the new frequency. -/
def Obligations.FrequencyWriteIsComparedAtTheNextSample : Prop :=
  ∀ (j : Chan) (d : Word) (s : State), s.started = true → Inv s →
    (getChan j s.block).active = true → (getChan j s.block).muted = false →
    Yields (.wrfreq (numberOf j) d) s fun u =>
      (getChan j u.block).cnt = (getChan j s.block).cnt ∧
      Yields .sample u fun t =>
        let n : Int := (getChan j s.block).cnt.toNat + 1
        let f : Int := min (max d.toInt 0) 255
        ((getChan j t.block).cnt.toNat : Int) =
          if j = .ch0 ∧ s.block.pulse = true then (if n ≥ 4 * (f + 2) then 0 else n)
          else (if n > f then 0 else n)

/-- R171: a WRPULSE writes no channel state; at the next SAMPLE channel 0 goes on from its counter and, as a square,
from its held amplitude. -/
def Obligations.PulseSwitchCarriesTheCounterOver : Prop :=
  ∀ (d : Word) (s : State), s.started = true → Inv s → s.block.ch0.active = true → s.block.ch0.muted = false →
    Yields (.wrpulse d) s fun u =>
      BanksSame s.block u.block ∧
      Yields .sample u fun t =>
        let c := s.block.ch0
        let c' := t.block.ch0
        let L := 4 * (c.freq.toNat + 2)
        if d = 0 then
          (c.cnt.toNat + 1 > c.freq.toNat →
            c'.cnt = 0 ∧ c'.amp.toInt = if c.amp.toInt = 0 then c.vol.toNat * s.cfg.outputScale else 0) ∧
          (c.cnt.toNat + 1 ≤ c.freq.toNat → c'.cnt.toNat = c.cnt.toNat + 1 ∧ c'.amp = c.amp)
        else
          c'.cnt.toNat = (if c.cnt.toNat + 1 ≥ L then 0 else c.cnt.toNat + 1) ∧
          c'.amp.toInt = if c'.cnt.toNat ≤ c.freq.toNat then c.vol.toNat * s.cfg.outputScale else 0

/-! ### Numbers -/

/-- R195: amplitudes stay within 15 * 2^26, and for outputs in that range every intermediate value fits its width, so
that arithmetic on 32-bit outputs and 64-bit mixes gives the integers' values. -/
def Obligations.IntermediateValuesFitTheirWidths : Prop :=
  (∀ s : State, Inv s → ∀ j, |(getChan j s.block).amp.toInt| ≤ 15 * 2 ^ 26) ∧
  (∀ (s t : State), Inv s → exec .sample s = .next t → ∀ j, |(getChan j t.block).amp.toInt| ≤ 15 * 2 ^ 26) ∧
  (∀ o0 o1 o2 : Int, |o0| ≤ 15 * 2 ^ 26 → |o1| ≤ 15 * 2 ^ 26 → |o2| ≤ 15 * 2 ^ 26 →
    |o0| < 2 ^ 30 ∧ |2 * o0| ≤ 30 * 2 ^ 26 ∧ |2 * o0| < 2 ^ 31 ∧
    (BitVec.ofInt 32 o0).toInt = o0 ∧ (2 * BitVec.ofInt 32 o0).toInt = 2 * o0 ∧
    (∀ ring, |mix ring o0 o1 o2| ≤ (15 * 2 ^ 26) ^ 2 + 15 * 2 ^ 26 ∧ |mix ring o0 o1 o2| < 2 ^ 63) ∧
    (BitVec.ofInt 64 o0 * BitVec.ofInt 64 o1 + BitVec.ofInt 64 o2).toInt = mix true o0 o1 o2 ∧
    (BitVec.ofInt 64 o0 + BitVec.ofInt 64 o1 + BitVec.ofInt 64 o2).toInt = mix false o0 o1 o2)

/-- R196: with S >= 0 no output is negative and the sample lies in 0..32767, so that a mix below the lower clamp needs
S < 0. -/
def Obligations.NonnegativeScaleGivesNonnegativeSamples : Prop :=
  ∀ s : State, s.started = true → Inv s → 0 ≤ s.cfg.outputScale →
    Yields .sample s fun t =>
      (∀ j, 0 ≤ (getChan j t.block).amp.toInt) ∧
      ∃ (y : BitVec 16) (osc0 osc1 osc2 : BitVec 32),
        t.responses = s.responses ++ [.sample y osc0 osc1 osc2] ∧ 0 ≤ y.toInt ∧ y.toInt ≤ 32767 ∧
        0 ≤ osc0.toInt ∧ 0 ≤ osc1.toInt ∧ 0 ≤ osc2.toInt

/-- R197: with all three channels high at volume 15, where the two mixes saturate. -/
def Obligations.SaturationPoints : Prop :=
  ∀ S : Int, 0 < S →
    mix false (15 * S) (15 * S) (15 * S) = 45 * S ∧
    mix true (15 * S) (15 * S) (15 * S) = 225 * S ^ 2 + 15 * S ∧
    (clampOut (mix false (15 * S) (15 * S) (15 * S)) = 32767 ↔ 729 ≤ S) ∧
    (clampOut (mix true (15 * S) (15 * S) (15 * S)) = 32767 ↔ 13 ≤ S) ∧
    (S = 728 → clampOut (mix false (15 * S) (15 * S) (15 * S)) = 32760) ∧
    (S = 12 → clampOut (mix true (15 * S) (15 * S) (15 * S)) = 32580)

/-! ### The assembler -/

/-- R79, R80: operand ranges, and the expansion of every pseudo-instruction on legal operands. -/
def Obligations.PseudoInstructionsExpand : Prop :=
  (∀ v : Int, (asmValue v = none ↔ v < -(2 ^ 31) ∨ 2 ^ 32 - 1 < v) ∧ ∀ d, asmValue v = some d → d = BitVec.ofInt 32 v) ∧
  (∀ (j : Chan) (v : Int) (d : Word), asmValue v = some d →
    let c := (numberOf j).toNat
    expandPseudo (.noteon c) = some [.wract (numberOf j) 1] ∧
    expandPseudo (.noteoff c) = some [.wract (numberOf j) 0] ∧
    expandPseudo (.volume c v) = some [.wrvol (numberOf j) d] ∧
    expandPseudo (.getvol c) = some [.rdvol (numberOf j)] ∧
    expandPseudo .getvolmax = some [.rdvolmax] ∧
    expandPseudo (.setfreq c v) = some [.wrfreq (numberOf j) d] ∧
    expandPseudo (.mute c v) = some [.wrmute (numberOf j) d] ∧
    expandPseudo (.pulsemode v) = some [.wrpulse d] ∧
    expandPseudo (.ringmod v) = some [.wrring d] ∧
    expandPseudo (.noisewidth v) = some [.wrnmode d]) ∧
  (∀ n, expandPseudo (.samples n) = some (List.replicate n .sample)) ∧
  expandPseudo .init = some [.reset]
end

