-- ==== Sys2Proof/Laws/Decode.lean ====
section
/-! SUPPORT. The fields of a word put together from fields are those fields, and every word is put together so. -/

namespace Sys2Proof

theorem getLsbD_mkTxn (k : BitVec 2) (a : BitVec 6) (d : Word) (i : Nat) :
    (mkTxn k a d).getLsbD i =
      if i < 32 then d.getLsbD i else if i - 32 < 6 then a.getLsbD (i - 32) else k.getLsbD (i - 32 - 6) := by
  have h : (mkTxn k a d).getLsbD i = ((k ++ a : BitVec (2 + 6)) ++ d).getLsbD i := rfl
  rw [h, BitVec.getLsbD_append, BitVec.getLsbD_append]

@[simp] theorem kindField_mkTxn (k : BitVec 2) (a : BitVec 6) (d : Word) : kindField (mkTxn k a d) = k := by
  refine BitVec.eq_of_getLsbD_eq fun i hi => ?_
  simp [kindField, getLsbD_mkTxn, hi, show ¬38 + i < 32 by omega, show ¬38 + i - 32 < 6 by omega,
    show 38 + i - 32 - 6 = i by omega]

@[simp] theorem addrField_mkTxn (k : BitVec 2) (a : BitVec 6) (d : Word) : addrField (mkTxn k a d) = a := by
  refine BitVec.eq_of_getLsbD_eq fun i hi => ?_
  simp [addrField, getLsbD_mkTxn, hi]

@[simp] theorem dataField_mkTxn (k : BitVec 2) (a : BitVec 6) (d : Word) : dataField (mkTxn k a d) = d := by
  refine BitVec.eq_of_getLsbD_eq fun i hi => ?_
  simp [dataField, getLsbD_mkTxn, hi]

theorem mkTxn_fields (w : Txn) : mkTxn (kindField w) (addrField w) (dataField w) = w := by
  refine BitVec.eq_of_getLsbD_eq fun i hi => ?_
  simp only [getLsbD_mkTxn, kindField, addrField, dataField, BitVec.getLsbD_extractLsb']
  by_cases h : i < 32
  · simp [h]
  · by_cases h' : i - 32 < 6
    · simp [h, h', show 32 + (i - 32) = i by omega]
    · simp [h, h', show 38 + (i - 32 - 6) = i by omega, show i - 32 - 6 < 2 by omega]

/-- A word of kind WR decodes as its address and data do (R77). -/
theorem decode_write (a : BitVec 6) (d : Word) : decode (mkTxn 0 a d) = decodeWrite a d := by
  simp [decode]

/-- A word of kind RD decodes as its address and data do (R77). -/
theorem decode_read (a : BitVec 6) (d : Word) : decode (mkTxn 1 a d) = decodeRead a d := by
  simp [decode]

/-- A word of kind SAMPLE decodes as its address and data do (R77). -/
theorem decode_sample (a : BitVec 6) (d : Word) : decode (mkTxn 2 a d) = decodeBare .sample a d := by
  simp [decode]

/-- A word of kind RESET decodes as its address and data do (R77). -/
theorem decode_reset (a : BitVec 6) (d : Word) : decode (mkTxn 3 a d) = decodeBare .reset a d := by
  simp [decode]

end Sys2Proof
end

