-- ==== Sys2Proof/Laws/Operands.lean ====
section
/-! SUPPORT. What the operand forms, the one-bit elements and the narrowing stores give, as numbers. -/

namespace Sys2Proof.Machine

theorem clamp_eq (v lo hi : Int) : clamp v lo hi = min (max v lo) hi := rfl

/-- R120: the stored frequency is the saturated operand. -/
theorem freqOf_toNat (d : Word) : ((freqOf d).toNat : Int) = min (max d.toInt 0) 255 := by
  simp only [freqOf, clamp_eq, sext32, freqMax, BitVec.toNat_ofInt]
  omega

/-- R121: the stored volume is the saturated operand. -/
theorem volOf_toNat (d : Word) : ((volOf d).toNat : Int) = min (max d.toInt 0) 15 := by
  simp only [volOf, clamp_eq, sext32, volMax, BitVec.toNat_ofInt]
  omega

/-- R73: the nonzero test of the operand. -/
theorem flagOf_iff (d : Word) : flagOf d = true ↔ d ≠ 0 := by
  have h : d.toInt = 0 ↔ d = 0 := ⟨fun h => BitVec.eq_of_toInt_eq (by simpa using h), fun h => by simp [h]⟩
  simp [flagOf, sext32, h]

@[simp] theorem flagWord_toNat (b : Bool) : (flagWord b).toNat = b.toNat := by cases b <;> rfl

theorem zext32_toNat {n : Nat} (h : n ≤ 32) (v : BitVec n) : (zext32 v).toNat = v.toNat := by
  have := Nat.pow_le_pow_right (show 0 < 2 by omega) h
  simp only [zext32, BitVec.toNat_setWidth]
  exact Nat.mod_eq_of_lt (by omega)

theorem widthMask_toNat (w : NoiseWidth) : (widthMask w).toNat = 2 ^ widthBits w - 1 := by cases w <;> rfl

theorem widthOf_eq_some {v : Int} {w : NoiseWidth} : widthOf v = some w ↔ v = widthBits w := by
  unfold widthOf
  cases w <;> simp only [widthBits] <;> split <;> (try split) <;> (try split) <;> simp <;> omega

/-- An integer in the 32-bit range is stored as it is. -/
theorem ofInt32_toInt {v : Int} (h : -(2 ^ 31) ≤ v) (h' : v < 2 ^ 31) : (BitVec.ofInt 32 v).toInt = v := by
  rw [BitVec.toInt_ofInt]
  exact Int.bmod_eq_of_le (by omega) (by omega)

/-- R193: the output sample as 16 bits is the clamped mix. -/
theorem ofInt16_clampOut (m : Int) : (BitVec.ofInt 16 (clampOut m)).toInt = min (max m (-32768)) 32767 := by
  simp only [clampOut, clamp_eq, outMin, outMax]
  rw [BitVec.toInt_ofInt]
  exact Int.bmod_eq_of_le (by omega) (by omega)

/-- R6, R24: a volume times a legal scale is within 15 * 2^26. -/
theorem volume_times_scale_bounds {S : Int} (h : -(2 ^ 26) ≤ S) (h' : S ≤ 2 ^ 26) {v : Nat} (hv : v ≤ 15) :
    -(15 * 2 ^ 26) ≤ (v : Int) * S ∧ (v : Int) * S ≤ 15 * 2 ^ 26 := by
  constructor <;> nlinarith

/-- R24: with a legal scale the stored level is `v * S`. -/
theorem level_toInt {S : Int} (h : -(2 ^ 26) ≤ S) (h' : S ≤ 2 ^ 26) (v : BitVec 4) :
    (level S v).toInt = v.toNat * S := by
  have := volume_times_scale_bounds h h' (v := v.toNat) (by omega)
  exact ofInt32_toInt (by omega) (by omega)

/-- R165: with a legal scale the stored noise level is `b * v * S`. -/
theorem noiseLevel_toInt {S : Int} (h : -(2 ^ 26) ≤ S) (h' : S ≤ 2 ^ 26) (b : Bool) (v : BitVec 4) :
    (noiseLevel S b v).toInt = b.toNat * v.toNat * S := by
  cases b
  · simp [noiseLevel]
  · simpa [noiseLevel, level] using level_toInt h h' v

end Sys2Proof.Machine
end

