-- ==== Sys2Proof/Laws/State.lean ====
section
/-! SUPPORT. One lemma per field per update of the state, the block and a channel bank, so that no proof unfolds a
record update. -/

namespace Sys2Proof.Machine

@[simp] theorem mapBlock_block (f : Block → Block) (s : State) : (mapBlock f s).block = f s.block := rfl
@[simp] theorem mapBlock_started (f : Block → Block) (s : State) : (mapBlock f s).started = s.started := rfl
@[simp] theorem mapBlock_refusals (f : Block → Block) (s : State) : (mapBlock f s).refusals = s.refusals := rfl
@[simp] theorem mapBlock_cfg (f : Block → Block) (s : State) : (mapBlock f s).cfg = s.cfg := rfl
@[simp] theorem mapBlock_host (f : Block → Block) (s : State) : (mapBlock f s).host = s.host := rfl
@[simp] theorem mapBlock_responses (f : Block → Block) (s : State) : (mapBlock f s).responses = s.responses := rfl

@[simp] theorem respond_block (v : Word) (s : State) : (respond v s).block = s.block := rfl
@[simp] theorem respond_started (v : Word) (s : State) : (respond v s).started = s.started := rfl
@[simp] theorem respond_refusals (v : Word) (s : State) : (respond v s).refusals = s.refusals := rfl
@[simp] theorem respond_cfg (v : Word) (s : State) : (respond v s).cfg = s.cfg := rfl
@[simp] theorem respond_host (v : Word) (s : State) : (respond v s).host = s.host := rfl
@[simp] theorem respond_responses (v : Word) (s : State) : (respond v s).responses = s.responses ++ [.read v] := rfl

@[simp] theorem recordRefusal_block (r : Refusal) (w : Txn) (s : State) : (recordRefusal r w s).block = s.block := rfl
@[simp] theorem recordRefusal_started (r : Refusal) (w : Txn) (s : State) : (recordRefusal r w s).started = s.started := rfl
@[simp] theorem recordRefusal_refusals (r : Refusal) (w : Txn) (s : State) : (recordRefusal r w s).refusals = s.refusals ++ [⟨r, w⟩] := rfl
@[simp] theorem recordRefusal_cfg (r : Refusal) (w : Txn) (s : State) : (recordRefusal r w s).cfg = s.cfg := rfl
@[simp] theorem recordRefusal_host (r : Refusal) (w : Txn) (s : State) : (recordRefusal r w s).host = s.host := rfl
@[simp] theorem recordRefusal_responses (r : Refusal) (w : Txn) (s : State) : (recordRefusal r w s).responses = s.responses := rfl

@[simp] theorem issue_block (ws : List Txn) (s : State) : (issue ws s).block = s.block := rfl
@[simp] theorem issue_started (ws : List Txn) (s : State) : (issue ws s).started = s.started := rfl
@[simp] theorem issue_refusals (ws : List Txn) (s : State) : (issue ws s).refusals = s.refusals := rfl
@[simp] theorem issue_cfg (ws : List Txn) (s : State) : (issue ws s).cfg = s.cfg := rfl
@[simp] theorem issue_host (ws : List Txn) (s : State) : (issue ws s).host = ws := rfl
@[simp] theorem issue_responses (ws : List Txn) (s : State) : (issue ws s).responses = s.responses := rfl

@[simp] theorem placeNext_block (n : Nat) (w : Nat) (s : State) : (placeNext n w s).block = s.block := rfl
@[simp] theorem placeNext_started (n : Nat) (w : Nat) (s : State) : (placeNext n w s).started = s.started := rfl
@[simp] theorem placeNext_refusals (n : Nat) (w : Nat) (s : State) : (placeNext n w s).refusals = s.refusals := rfl
@[simp] theorem placeNext_cfg (n : Nat) (w : Nat) (s : State) : (placeNext n w s).cfg = s.cfg := rfl
@[simp] theorem placeNext_host (n : Nat) (w : Nat) (s : State) : (placeNext n w s).host = BitVec.ofNat 40 (w % 2 ^ n) :: s.host.tail := rfl
@[simp] theorem placeNext_responses (n : Nat) (w : Nat) (s : State) : (placeNext n w s).responses = s.responses := rfl

@[simp] theorem setFreq_freq (f : BitVec 8) (c : Channel) : (setFreq f c).freq = f := rfl
@[simp] theorem setFreq_vol (f : BitVec 8) (c : Channel) : (setFreq f c).vol = c.vol := rfl
@[simp] theorem setFreq_active (f : BitVec 8) (c : Channel) : (setFreq f c).active = c.active := rfl
@[simp] theorem setFreq_muted (f : BitVec 8) (c : Channel) : (setFreq f c).muted = c.muted := rfl
@[simp] theorem setFreq_cnt (f : BitVec 8) (c : Channel) : (setFreq f c).cnt = c.cnt := rfl
@[simp] theorem setFreq_amp (f : BitVec 8) (c : Channel) : (setFreq f c).amp = c.amp := rfl

@[simp] theorem setVol_freq (v : BitVec 4) (c : Channel) : (setVol v c).freq = c.freq := rfl
@[simp] theorem setVol_vol (v : BitVec 4) (c : Channel) : (setVol v c).vol = v := rfl
@[simp] theorem setVol_active (v : BitVec 4) (c : Channel) : (setVol v c).active = c.active := rfl
@[simp] theorem setVol_muted (v : BitVec 4) (c : Channel) : (setVol v c).muted = c.muted := rfl
@[simp] theorem setVol_cnt (v : BitVec 4) (c : Channel) : (setVol v c).cnt = c.cnt := rfl
@[simp] theorem setVol_amp (v : BitVec 4) (c : Channel) : (setVol v c).amp = c.amp := rfl

@[simp] theorem setActive_freq (b : Bool) (c : Channel) : (setActive b c).freq = c.freq := rfl
@[simp] theorem setActive_vol (b : Bool) (c : Channel) : (setActive b c).vol = c.vol := rfl
@[simp] theorem setActive_active (b : Bool) (c : Channel) : (setActive b c).active = b := rfl
@[simp] theorem setActive_muted (b : Bool) (c : Channel) : (setActive b c).muted = c.muted := rfl
@[simp] theorem setActive_cnt (b : Bool) (c : Channel) : (setActive b c).cnt = c.cnt := rfl
@[simp] theorem setActive_amp (b : Bool) (c : Channel) : (setActive b c).amp = c.amp := rfl

@[simp] theorem setMuted_freq (b : Bool) (c : Channel) : (setMuted b c).freq = c.freq := rfl
@[simp] theorem setMuted_vol (b : Bool) (c : Channel) : (setMuted b c).vol = c.vol := rfl
@[simp] theorem setMuted_active (b : Bool) (c : Channel) : (setMuted b c).active = c.active := rfl
@[simp] theorem setMuted_muted (b : Bool) (c : Channel) : (setMuted b c).muted = b := rfl
@[simp] theorem setMuted_cnt (b : Bool) (c : Channel) : (setMuted b c).cnt = c.cnt := rfl
@[simp] theorem setMuted_amp (b : Bool) (c : Channel) : (setMuted b c).amp = c.amp := rfl

@[simp] theorem bump_freq (c : Channel) : (bump c).freq = c.freq := rfl
@[simp] theorem bump_vol (c : Channel) : (bump c).vol = c.vol := rfl
@[simp] theorem bump_active (c : Channel) : (bump c).active = c.active := rfl
@[simp] theorem bump_muted (c : Channel) : (bump c).muted = c.muted := rfl
@[simp] theorem bump_cnt (c : Channel) : (bump c).cnt = BitVec.ofNat 16 (c.cnt.toNat + 1) := rfl
@[simp] theorem bump_amp (c : Channel) : (bump c).amp = c.amp := rfl

@[simp] theorem pulseUpdate_freq (S : Int) (c : Channel) : (pulseUpdate S c).freq = c.freq := rfl
@[simp] theorem pulseUpdate_vol (S : Int) (c : Channel) : (pulseUpdate S c).vol = c.vol := rfl
@[simp] theorem pulseUpdate_active (S : Int) (c : Channel) : (pulseUpdate S c).active = c.active := rfl
@[simp] theorem pulseUpdate_muted (S : Int) (c : Channel) : (pulseUpdate S c).muted = c.muted := rfl
@[simp] theorem pulseUpdate_cnt (S : Int) (c : Channel) : (pulseUpdate S c).cnt = pulseCount c := rfl
@[simp] theorem pulseUpdate_amp (S : Int) (c : Channel) : (pulseUpdate S c).amp = if (pulseCount c).toNat ≤ c.freq.toNat then level S c.vol else 0 := rfl

@[simp] theorem setPulse_ch0 (b : Bool) (k : Block) : (setPulse b k).ch0 = k.ch0 := rfl
@[simp] theorem setPulse_ch1 (b : Bool) (k : Block) : (setPulse b k).ch1 = k.ch1 := rfl
@[simp] theorem setPulse_ch2 (b : Bool) (k : Block) : (setPulse b k).ch2 = k.ch2 := rfl
@[simp] theorem setPulse_pulse (b : Bool) (k : Block) : (setPulse b k).pulse = b := rfl
@[simp] theorem setPulse_ring (b : Bool) (k : Block) : (setPulse b k).ring = k.ring := rfl
@[simp] theorem setPulse_nwidth (b : Bool) (k : Block) : (setPulse b k).nwidth = k.nwidth := rfl
@[simp] theorem setPulse_lfsr (b : Bool) (k : Block) : (setPulse b k).lfsr = k.lfsr := rfl

@[simp] theorem setRing_ch0 (b : Bool) (k : Block) : (setRing b k).ch0 = k.ch0 := rfl
@[simp] theorem setRing_ch1 (b : Bool) (k : Block) : (setRing b k).ch1 = k.ch1 := rfl
@[simp] theorem setRing_ch2 (b : Bool) (k : Block) : (setRing b k).ch2 = k.ch2 := rfl
@[simp] theorem setRing_pulse (b : Bool) (k : Block) : (setRing b k).pulse = k.pulse := rfl
@[simp] theorem setRing_ring (b : Bool) (k : Block) : (setRing b k).ring = b := rfl
@[simp] theorem setRing_nwidth (b : Bool) (k : Block) : (setRing b k).nwidth = k.nwidth := rfl
@[simp] theorem setRing_lfsr (b : Bool) (k : Block) : (setRing b k).lfsr = k.lfsr := rfl

@[simp] theorem setMode_ch0 (w : NoiseWidth) (k : Block) : (setMode w k).ch0 = k.ch0 := rfl
@[simp] theorem setMode_ch1 (w : NoiseWidth) (k : Block) : (setMode w k).ch1 = k.ch1 := rfl
@[simp] theorem setMode_ch2 (w : NoiseWidth) (k : Block) : (setMode w k).ch2 = k.ch2 := rfl
@[simp] theorem setMode_pulse (w : NoiseWidth) (k : Block) : (setMode w k).pulse = k.pulse := rfl
@[simp] theorem setMode_ring (w : NoiseWidth) (k : Block) : (setMode w k).ring = k.ring := rfl
@[simp] theorem setMode_nwidth (w : NoiseWidth) (k : Block) : (setMode w k).nwidth = w := rfl
@[simp] theorem setMode_lfsr (w : NoiseWidth) (k : Block) : (setMode w k).lfsr = widthMask w := rfl
@[simp] theorem emit_block (y a b d : Int) (s : State) : (emit y a b d s).block = s.block := rfl
@[simp] theorem emit_started (y a b d : Int) (s : State) : (emit y a b d s).started = s.started := rfl
@[simp] theorem emit_refusals (y a b d : Int) (s : State) : (emit y a b d s).refusals = s.refusals := rfl
@[simp] theorem emit_cfg (y a b d : Int) (s : State) : (emit y a b d s).cfg = s.cfg := rfl
@[simp] theorem emit_host (y a b d : Int) (s : State) : (emit y a b d s).host = s.host := rfl
@[simp] theorem emit_responses (y a b d : Int) (s : State) :
    (emit y a b d s).responses = s.responses ++
      [.sample (BitVec.ofInt 16 y) (BitVec.ofInt 32 a) (BitVec.ofInt 32 b) (BitVec.ofInt 32 d)] := rfl

@[simp] theorem getChan_setChan_same (j : Chan) (c : Channel) (k : Block) : getChan j (setChan j c k) = c := by
  cases j <;> rfl

theorem getChan_setChan_ne {i j : Chan} (h : i ≠ j) (c : Channel) (k : Block) :
    getChan i (setChan j c k) = getChan i k := by
  cases i <;> cases j <;> first | rfl | exact absurd rfl h

@[simp] theorem getChan_mapChan_same (j : Chan) (f : Channel → Channel) (k : Block) :
    getChan j (mapChan j f k) = f (getChan j k) := getChan_setChan_same ..

theorem getChan_mapChan_ne {i j : Chan} (h : i ≠ j) (f : Channel → Channel) (k : Block) :
    getChan i (mapChan j f k) = getChan i k := getChan_setChan_ne h ..

@[simp] theorem setChan_setChan (j : Chan) (c d : Channel) (k : Block) :
    setChan j c (setChan j d k) = setChan j c k := by
  cases j <;> rfl

@[simp] theorem setChan_pulse (j : Chan) (c : Channel) (k : Block) : (setChan j c k).pulse = k.pulse := by cases j <;> rfl

@[simp] theorem mapChan_pulse (j : Chan) (f : Channel → Channel) (k : Block) : (mapChan j f k).pulse = k.pulse := setChan_pulse ..

@[simp] theorem setChan_ring (j : Chan) (c : Channel) (k : Block) : (setChan j c k).ring = k.ring := by cases j <;> rfl

@[simp] theorem mapChan_ring (j : Chan) (f : Channel → Channel) (k : Block) : (mapChan j f k).ring = k.ring := setChan_ring ..

@[simp] theorem setChan_nwidth (j : Chan) (c : Channel) (k : Block) : (setChan j c k).nwidth = k.nwidth := by cases j <;> rfl

@[simp] theorem mapChan_nwidth (j : Chan) (f : Channel → Channel) (k : Block) : (mapChan j f k).nwidth = k.nwidth := setChan_nwidth ..

@[simp] theorem setChan_lfsr (j : Chan) (c : Channel) (k : Block) : (setChan j c k).lfsr = k.lfsr := by cases j <;> rfl

@[simp] theorem mapChan_lfsr (j : Chan) (f : Channel → Channel) (k : Block) : (mapChan j f k).lfsr = k.lfsr := setChan_lfsr ..

@[simp] theorem getChan_ch0 (k : Block) : getChan .ch0 k = k.ch0 := rfl

@[simp] theorem getChan_ch1 (k : Block) : getChan .ch1 k = k.ch1 := rfl

@[simp] theorem getChan_ch2 (k : Block) : getChan .ch2 k = k.ch2 := rfl

end Sys2Proof.Machine
end

