-- ==== Sys2Proof/Laws/Ops.lean ====
section
/-! SUPPORT. What each shared operation can answer, said once: the value it gives on a legal channel, and, where it
answers a next state, everything that state is. -/

namespace Sys2Proof.Machine

open Sys2Proof.Safety

@[simp] theorem channelOf_numberOf (j : Chan) : channelOf (numberOf j) = some j := by cases j <;> rfl

@[simp] theorem channelOf_three : channelOf 3 = none := rfl

theorem channelOf_eq_some {c : BitVec 2} {j : Chan} : channelOf c = some j ↔ c = numberOf j := by
  revert c j
  intro c j
  cases j <;> revert c <;> decide

theorem channelOf_eq_none {c : BitVec 2} : channelOf c = none ↔ c = 3 := by
  revert c
  decide

theorem whenStarted_of_started {s : State} (h : s.started = true) (r : Result) : whenStarted s r = r := by
  simp [whenStarted, h]

theorem whenStarted_of_not_started {s : State} (h : s.started = false) (r : Result) :
    whenStarted s r = .refused .notStarted := by
  simp [whenStarted, h]

theorem whenStarted_next {s t : State} {r : Result} (h : whenStarted s r = .next t) :
    s.started = true ∧ r = .next t := by
  unfold whenStarted at h
  split at h
  · exact ⟨‹_›, h⟩
  · cases h

theorem withChannel_numberOf (j : Chan) (r : Chan → Result) : withChannel (numberOf j) r = r j := by
  simp [withChannel]

theorem withChannel_three (r : Chan → Result) : withChannel 3 r = .refused .noSuchChannel := rfl

theorem withChannel_next {c : BitVec 2} {r : Chan → Result} {t : State} (h : withChannel c r = .next t) :
    ∃ j, c = numberOf j ∧ r j = .next t := by
  unfold withChannel at h
  split at h
  · exact ⟨_, channelOf_eq_some.mp ‹_›, h⟩
  · cases h

theorem writeChannel_numberOf {s : State} (hs : s.started = true) (j : Chan) (f : Channel → Channel) :
    writeChannel (numberOf j) f s = .next (mapBlock (mapChan j f) s) := by
  rw [writeChannel, whenStarted_of_started hs, withChannel_numberOf]

theorem writeChannel_three {s : State} (hs : s.started = true) (f : Channel → Channel) :
    writeChannel 3 f s = .refused .noSuchChannel := by
  rw [writeChannel, whenStarted_of_started hs, withChannel_three]

theorem writeChannel_next {c : BitVec 2} {f : Channel → Channel} {s t : State} (h : writeChannel c f s = .next t) :
    s.started = true ∧ ∃ j, c = numberOf j ∧ t = mapBlock (mapChan j f) s := by
  obtain ⟨hs, h⟩ := whenStarted_next h
  obtain ⟨j, hc, h⟩ := withChannel_next h
  cases h
  exact ⟨hs, j, hc, rfl⟩

theorem readChannel_numberOf {s : State} (hs : s.started = true) (j : Chan) (f : Channel → Word) :
    readChannel (numberOf j) f s = .next (respond (f (getChan j s.block)) s) := by
  rw [readChannel, whenStarted_of_started hs, withChannel_numberOf]

theorem readChannel_three {s : State} (hs : s.started = true) (f : Channel → Word) :
    readChannel 3 f s = .refused .noSuchChannel := by
  rw [readChannel, whenStarted_of_started hs, withChannel_three]

theorem readChannel_next {c : BitVec 2} {f : Channel → Word} {s t : State} (h : readChannel c f s = .next t) :
    s.started = true ∧ ∃ j, c = numberOf j ∧ t = respond (f (getChan j s.block)) s := by
  obtain ⟨hs, h⟩ := whenStarted_next h
  obtain ⟨j, hc, h⟩ := withChannel_next h
  cases h
  exact ⟨hs, j, hc, rfl⟩

theorem writeGlobal_started {s : State} (hs : s.started = true) (f : Block → Block) :
    writeGlobal f s = .next (mapBlock f s) := whenStarted_of_started hs _

theorem writeGlobal_next {f : Block → Block} {s t : State} (h : writeGlobal f s = .next t) :
    s.started = true ∧ t = mapBlock f s := by
  obtain ⟨hs, h⟩ := whenStarted_next h
  cases h
  exact ⟨hs, rfl⟩

theorem readGlobal_started {s : State} (hs : s.started = true) (f : Block → Word) :
    readGlobal f s = .next (respond (f s.block) s) := whenStarted_of_started hs _

theorem readGlobal_next {f : Block → Word} {s t : State} (h : readGlobal f s = .next t) :
    s.started = true ∧ t = respond (f s.block) s := by
  obtain ⟨hs, h⟩ := whenStarted_next h
  cases h
  exact ⟨hs, rfl⟩

theorem execWrnmode_next {d : Word} {s t : State} (h : execWrnmode d s = .next t) :
    s.started = true ∧ ∃ w, widthOf (sext32 d) = some w ∧ t = mapBlock (setMode w) s := by
  obtain ⟨hs, h⟩ := whenStarted_next h
  split at h
  · cases h
    exact ⟨hs, _, ‹_›, rfl⟩
  · cases h

/-- What SAMPLE leaves: the block past the three gates, one response more, all else as it was. -/
theorem execSample_next {s t : State} (h : execSample s = .next t) :
    s.started = true ∧
      t.block = sampleBlock s.cfg.outputScale s.block ∧
      t.started = s.started ∧ t.refusals = s.refusals ∧ t.cfg = s.cfg ∧ t.host = s.host ∧
      ∃ y o0 o1 o2, t.responses = s.responses ++ [.sample y o0 o1 o2] := by
  obtain ⟨hs, h⟩ := whenStarted_next h
  cases h
  exact ⟨hs, rfl, rfl, rfl, rfl, rfl, _, _, _, _, rfl⟩

theorem performNext_nil {s : State} (h : s.host = []) : performNext s = .next s := by
  simp [performNext, h]

theorem performNext_cons {s : State} {w : Txn} {rest : List Txn} (h : s.host = w :: rest) :
    performNext s = settle w { s with host := rest } := by
  simp [performNext, h]

/-- What one transaction can leave: its own next state, or the state it found with the refusal recorded. -/
theorem settle_next {w : Txn} {s t : State} (h : settle w s = .next t) :
    transact w s = .next t ∨ ∃ r, transact w s = .refused r ∧ t = recordRefusal r w s := by
  unfold settle at h
  split at h
  · rename_i u hu
    exact .inl (hu.trans h)
  · cases h
  · split at h
    · cases h
      exact .inr ⟨_, ‹_›, rfl⟩
    · cases h

theorem transact_next {w : Txn} {s t : State} (h : transact w s = .next t) :
    ∃ i, decode w = .ok i ∧ exec i s = .next t := by
  unfold transact at h
  split at h
  · exact ⟨_, ‹_›, h⟩
  · cases h

/-- What one step can do: hold the state, perform the next transaction, or record its refusal. -/
theorem step_next {s t : State} (h : step s = .next t) :
    (s.host = [] ∧ t = s) ∨ ∃ w rest, s.host = w :: rest ∧
      ((∃ i, decode w = .ok i ∧ exec i { s with host := rest } = .next t) ∨
        ∃ r, t = recordRefusal r w { s with host := rest }) := by
  unfold step performNext at h
  split at h
  · cases h
    exact .inl ⟨‹_›, rfl⟩
  · refine .inr ⟨_, _, ‹_›, ?_⟩
    rcases settle_next h with h | ⟨r, -, h⟩
    · exact .inl (transact_next h)
    · exact .inr ⟨r, h⟩

end Sys2Proof.Machine
end

