-- ==== Sys2Proof/Laws/Oscillator.lean ====
section
/-! SUPPORT. What the gates of one SAMPLE touch, and that each channel's bank and output after the three gates are its
own gate's. -/

namespace Sys2Proof.Machine

theorem bump_toNat {c : Channel} (h : c.cnt.toNat < 65535) : (bump c).cnt.toNat = c.cnt.toNat + 1 := by
  simp only [bump_cnt, BitVec.toNat_ofNat]
  omega

/-- An update leaves a channel's own settings. -/
theorem squareUpdate_settings (S : Int) (c : Channel) :
    squareUpdate S c = { c with cnt := (squareUpdate S c).cnt, amp := (squareUpdate S c).amp } := by
  unfold squareUpdate
  split <;> rfl

theorem noiseUpdate_ch2 (S : Int) (k : Block) :
    (noiseUpdate S k).ch2 = { k.ch2 with cnt := (noiseUpdate S k).ch2.cnt, amp := (noiseUpdate S k).ch2.amp } := by
  unfold noiseUpdate
  split <;> rfl

/-- What the noise update can do: step the register and gate the level, or count (R165). -/
theorem noiseUpdate_cases (S : Int) (k : Block) :
    (noiseWraps k.ch2 = true ∧ noiseUpdate S k = { k with
      lfsr := lfsrStep k.nwidth k.lfsr
      ch2 := { k.ch2 with cnt := 0, amp := noiseLevel S (lfsrBit k.nwidth k.lfsr) k.ch2.vol } }) ∨
    (noiseWraps k.ch2 = false ∧ noiseUpdate S k = { k with ch2 := bump k.ch2 }) := by
  unfold noiseUpdate
  split
  · exact .inl ⟨‹_›, rfl⟩
  · exact .inr ⟨Bool.eq_false_iff.mpr ‹_›, rfl⟩

theorem gate_of_silent {S : Int} {j : Chan} {k : Block} (h : runs (getChan j k) = false) : gate S j k = k := by
  simp [gate, h]

theorem gateOut_of_silent {S : Int} {j : Chan} {k : Block} (h : runs (getChan j k) = false) : gateOut S j k = 0 := by
  simp [gateOut, h]

theorem gate_of_runs {S : Int} {j : Chan} {k : Block} (h : runs (getChan j k) = true) :
    gate S j k = updateChan S j k := by
  simp [gate, h]

theorem gateOut_of_runs {S : Int} {j : Chan} {k : Block} (h : runs (getChan j k) = true) :
    gateOut S j k = (getChan j (gate S j k)).amp.toInt := by
  simp [gateOut, h]

/-- Gate 0 touches the bank of channel 0 alone, by its bank, `pulse` and the scale. -/
theorem gate_ch0 (S : Int) (k : Block) :
    gate S .ch0 k = mapChan .ch0
      (fun c => if runs c then (if k.pulse then pulseUpdate S c else squareUpdate S c) else c) k := by
  cases h : runs k.ch0
  · simp [gate, mapChan, setChan, getChan, h]
  · cases h' : k.pulse <;> simp [gate, updateChan, mapChan, setChan, getChan, h, h']

/-- Gate 1 touches the bank of channel 1 alone, by its bank and the scale. -/
theorem gate_ch1 (S : Int) (k : Block) :
    gate S .ch1 k = mapChan .ch1 (fun c => if runs c then squareUpdate S c else c) k := by
  cases h : runs k.ch1 <;> simp [gate, updateChan, mapChan, setChan, getChan, h]

/-- Gate 2 touches the bank of channel 2 and the shift register alone. -/
theorem gate_ch2 (S : Int) (k : Block) :
    gate S .ch2 k = { k with ch2 := (gate S .ch2 k).ch2, lfsr := (gate S .ch2 k).lfsr } := by
  unfold gate updateChan
  split
  · rcases noiseUpdate_cases S k with ⟨-, h⟩ | ⟨-, h⟩ <;> rw [h]
  · rfl

@[simp] theorem gate_pulse (S : Int) (j : Chan) (k : Block) : (gate S j k).pulse = k.pulse := by
  cases j
  · rw [gate_ch0, mapChan_pulse]
  · rw [gate_ch1, mapChan_pulse]
  · rw [gate_ch2]

@[simp] theorem gate_ring (S : Int) (j : Chan) (k : Block) : (gate S j k).ring = k.ring := by
  cases j
  · rw [gate_ch0, mapChan_ring]
  · rw [gate_ch1, mapChan_ring]
  · rw [gate_ch2]

@[simp] theorem gate_nwidth (S : Int) (j : Chan) (k : Block) : (gate S j k).nwidth = k.nwidth := by
  cases j
  · rw [gate_ch0, mapChan_nwidth]
  · rw [gate_ch1, mapChan_nwidth]
  · rw [gate_ch2]

/-- What gate 2 leaves depends on its own bank, the width and the register. -/
theorem gate_ch2_congr {S : Int} {k l : Block} (h : k.ch2 = l.ch2) (hw : k.nwidth = l.nwidth) (hl : k.lfsr = l.lfsr) :
    (gate S .ch2 k).ch2 = (gate S .ch2 l).ch2 ∧ (gate S .ch2 k).lfsr = (gate S .ch2 l).lfsr := by
  simp only [gate, updateChan, noiseUpdate, getChan_ch2, h, hw, hl]
  split
  · split <;> simp
  · exact ⟨h, hl⟩

/-- After the three gates each bank is what its own gate leaves. -/
theorem getChan_sampleBlock (S : Int) (j : Chan) (k : Block) :
    getChan j (sampleBlock S k) = getChan j (gate S j k) := by
  have h2 : ∀ l : Block, (gate S .ch2 l).ch0 = l.ch0 ∧ (gate S .ch2 l).ch1 = l.ch1 := fun l => by
    rw [gate_ch2]; exact ⟨rfl, rfl⟩
  have h1 : (gate S .ch1 (gate S .ch0 k)).ch1 = (gate S .ch1 k).ch1 := by rw [gate_ch1, gate_ch1, gate_ch0]; rfl
  cases j
  · simp only [sampleBlock, getChan_ch0, (h2 _).1]
    rw [gate_ch1]
    rfl
  · simp only [sampleBlock, getChan_ch1, (h2 _).2, h1]
  · refine (gate_ch2_congr ?_ (by simp) ?_).1 <;> rw [gate_ch1, gate_ch0] <;> rfl

@[simp] theorem sampleBlock_lfsr (S : Int) (k : Block) : (sampleBlock S k).lfsr = (gate S .ch2 k).lfsr := by
  refine (gate_ch2_congr ?_ (by simp) ?_).2 <;> rw [gate_ch1, gate_ch0] <;> rfl

@[simp] theorem sampleBlock_pulse (S : Int) (k : Block) : (sampleBlock S k).pulse = k.pulse := by simp [sampleBlock]

@[simp] theorem sampleBlock_ring (S : Int) (k : Block) : (sampleBlock S k).ring = k.ring := by simp [sampleBlock]

@[simp] theorem sampleBlock_nwidth (S : Int) (k : Block) : (sampleBlock S k).nwidth = k.nwidth := by simp [sampleBlock]

theorem gateOut_congr {S : Int} {j : Chan} {k l : Block} (h : getChan j k = getChan j l)
    (h' : getChan j (gate S j k) = getChan j (gate S j l)) : gateOut S j k = gateOut S j l := by
  unfold gateOut
  rw [h, h']

/-- A channel's output: its amplitude after the sample if it sounds, else 0 (R160). -/
theorem sampleOut_eq (S : Int) (j : Chan) (k : Block) :
    sampleOut S j k = if runs (getChan j k) then (getChan j (sampleBlock S k)).amp.toInt else 0 := by
  have h1 : (gate S .ch1 (gate S .ch0 k)).ch1 = (gate S .ch1 k).ch1 := by rw [gate_ch1, gate_ch1, gate_ch0]; rfl
  have h01 : (gate S .ch0 k).ch1 = k.ch1 := by rw [gate_ch0]; rfl
  have h02 : (gate S .ch1 (gate S .ch0 k)).ch2 = k.ch2 := by rw [gate_ch1, gate_ch0]; rfl
  have h2l : (gate S .ch1 (gate S .ch0 k)).lfsr = k.lfsr := by rw [gate_ch1, gate_ch0]; rfl
  have h : sampleOut S j k = gateOut S j k := by
    cases j
    · rfl
    · exact gateOut_congr h01 h1
    · exact gateOut_congr h02 (gate_ch2_congr h02 (by simp) h2l).1
  rw [h, getChan_sampleBlock]
  rfl

/-- SAMPLE leaves every channel's settings. -/
theorem sampleBlock_settings (S : Int) (j : Chan) (k : Block) :
    getChan j (sampleBlock S k) =
      { getChan j k with cnt := (getChan j (sampleBlock S k)).cnt, amp := (getChan j (sampleBlock S k)).amp } := by
  rw [getChan_sampleBlock]
  cases hr : runs (getChan j k)
  · rw [gate_of_silent hr]
  · rw [gate_of_runs hr]
    cases j
    · simp only [updateChan]
      split
      · rfl
      · exact squareUpdate_settings S _
    · exact squareUpdate_settings S _
    · exact noiseUpdate_ch2 S k

/-- What SAMPLE leaves of a channel that does not sound: its bank. -/
theorem sampleBlock_of_silent {S : Int} {j : Chan} {k : Block} (h : runs (getChan j k) = false) :
    getChan j (sampleBlock S k) = getChan j k := by
  rw [getChan_sampleBlock, gate_of_silent h]

end Sys2Proof.Machine
end

