-- ==== Sys2Proof/Laws/PerInstr.lean ====
section
/-! SUPPORT. Statements made per transaction. Family TableRow: the encoder's word lies in the transaction's row of
spec/opcode_table.json, read as that file gives it, by match and mask. -/

namespace Sys2Proof.Laws.TableRow

/-- The row's match and mask in spec/opcode_table.json. -/
def row : Instr → Txn × Txn
  | .wrfreq _ _ => (0x0000000000, 0xF300000000)
  | .wrvol _ _ => (0x0100000000, 0xF300000000)
  | .wract _ _ => (0x0200000000, 0xF300000000)
  | .wrmute _ _ => (0x0300000000, 0xF300000000)
  | .wrpulse _ => (0x1000000000, 0xFF00000000)
  | .wrring _ => (0x1100000000, 0xFF00000000)
  | .wrnmode _ => (0x1200000000, 0xFF00000000)
  | .rdfreq _ => (0x4000000000, 0xF3FFFFFFFF)
  | .rdvol _ => (0x4100000000, 0xF3FFFFFFFF)
  | .rdact _ => (0x4200000000, 0xF3FFFFFFFF)
  | .rdmute _ => (0x4300000000, 0xF3FFFFFFFF)
  | .rdpulse => (0x5000000000, 0xFFFFFFFFFF)
  | .rdring => (0x5100000000, 0xFFFFFFFFFF)
  | .rdnmode => (0x5200000000, 0xFFFFFFFFFF)
  | .rdlfsr => (0x5300000000, 0xFFFFFFFFFF)
  | .rdvolmax => (0x5400000000, 0xFFFFFFFFFF)
  | .rdcnt _ => (0x5800000000, 0xFCFFFFFFFF)
  | .rdamp _ => (0x5C00000000, 0xFCFFFFFFFF)
  | .sample => (0x8000000000, 0xFFFFFFFFFF)
  | .reset => (0xC000000000, 0xFFFFFFFFFF)

/-- The word's bits under the row's mask are the row's match. -/
@[reducible] def Statement (i : Instr) : Prop := encode i &&& (row i).2 = (row i).1

/-- The mask of a row taken field by field. -/
theorem and_mkTxn (k k' : BitVec 2) (a a' : BitVec 6) (d d' : Word) :
    mkTxn k a d &&& mkTxn k' a' d' = mkTxn (k &&& k') (a &&& a') (d &&& d') := by
  refine BitVec.eq_of_getLsbD_eq fun i hi => ?_
  simp only [BitVec.getLsbD_and, getLsbD_mkTxn]
  split
  · rfl
  · split <;> rfl

/-- A row whose mask leaves the data free. -/
theorem masked_write (a m x : BitVec 6) (d : Word) (h : a &&& m = x) :
    mkTxn 0 a d &&& mkTxn 3 m 0 = mkTxn 0 x 0 := by
  rw [and_mkTxn, h, show d &&& (0 : Word) = 0 from BitVec.and_zero]
  rfl

theorem wrfreq (c : BitVec 2) (d : Word) : Statement (.wrfreq c d) := masked_write _ 0x33 0x0 d (by revert c; decide)

theorem wrvol (c : BitVec 2) (d : Word) : Statement (.wrvol c d) := masked_write _ 0x33 0x1 d (by revert c; decide)

theorem wract (c : BitVec 2) (d : Word) : Statement (.wract c d) := masked_write _ 0x33 0x2 d (by revert c; decide)

theorem wrmute (c : BitVec 2) (d : Word) : Statement (.wrmute c d) := masked_write _ 0x33 0x3 d (by revert c; decide)

theorem wrpulse (d : Word) : Statement (.wrpulse d) := masked_write _ 0x3f 0x10 d (by decide)

theorem wrring (d : Word) : Statement (.wrring d) := masked_write _ 0x3f 0x11 d (by decide)

theorem wrnmode (d : Word) : Statement (.wrnmode d) := masked_write _ 0x3f 0x12 d (by decide)

theorem rdfreq (c : BitVec 2) : Statement (.rdfreq c) := by
  revert c
  decide

theorem rdvol (c : BitVec 2) : Statement (.rdvol c) := by
  revert c
  decide

theorem rdact (c : BitVec 2) : Statement (.rdact c) := by
  revert c
  decide

theorem rdmute (c : BitVec 2) : Statement (.rdmute c) := by
  revert c
  decide

theorem rdpulse : Statement (.rdpulse) := by decide

theorem rdring : Statement (.rdring) := by decide

theorem rdnmode : Statement (.rdnmode) := by decide

theorem rdlfsr : Statement (.rdlfsr) := by decide

theorem rdvolmax : Statement (.rdvolmax) := by decide

theorem rdcnt (c : BitVec 2) : Statement (.rdcnt c) := by
  revert c
  decide

theorem rdamp (c : BitVec 2) : Statement (.rdamp c) := by
  revert c
  decide

theorem sample : Statement (.sample) := by decide

theorem reset : Statement (.reset) := by decide

end Sys2Proof.Laws.TableRow
end

