-- ==== Sys2Proof/Tests/Slice0.lean ====
section
/-! SUPPORT. The model's own tests, each on one step: words written out from the spec's encodings, results from the
spec's vectors (95_test_vectors.md, named where used), and for every statement with hypotheses a state and operands
that meet them. -/

namespace Sys2Proof.Tests

open Sys2Proof.Machine Sys2Proof.Safety

/-- Right after RESET, with the scale `S`. -/
def scaled (S : Int) : State := { State.reset with cfg := ⟨S, 44100, 15⟩ }

/-- A bank that sounds: divider `f`, volume 15, counter `n`, amplitude `a`. -/
def bank (f : BitVec 8) (n : BitVec 16) (a : BitVec 32) : Channel := ⟨f, 15, true, false, n, a⟩

/-- The three channels sounding at scale `S`, their banks given, the shift register at width 3. -/
def sounding (S : Int) (pulse ring : Bool) (c0 c1 c2 : Channel) : State :=
  { scaled S with block := ⟨c0, c1, c2, pulse, ring, .w3, 0x4⟩ }

/-- What a next state shows under `f`; nothing where there is no next state. -/
def shown {α : Type} (o : Result) (f : State → α) : Option α :=
  match o with
  | .next t => some (f t)
  | _ => none

/-- The refusal an outcome is. -/
def refusal (o : Result) : Option Refusal :=
  match o with
  | .refused r => some r
  | _ => none

/-- The last response. -/
def said (s : State) : Option Response := s.responses.getLast?

/-! ### WellFormed -/

theorem test_wellFormed_refuses_channel_3 :
    (Instr.wrfreq 3 0).wellFormed = false ∧ (Instr.wrvol 3 0).wellFormed = false ∧
    (Instr.wract 3 0).wellFormed = false ∧ (Instr.wrmute 3 0).wellFormed = false ∧
    (Instr.rdfreq 3).wellFormed = false ∧ (Instr.rdvol 3).wellFormed = false ∧
    (Instr.rdact 3).wellFormed = false ∧ (Instr.rdmute 3).wellFormed = false ∧
    (Instr.rdcnt 3).wellFormed = false ∧ (Instr.rdamp 3).wellFormed = false := by decide

theorem test_wellFormed_admits_channel_2 :
    (Instr.wrfreq 2 0).wellFormed = true ∧ (Instr.rdamp 2).wellFormed = true ∧ Instr.sample.wellFormed = true := by
  decide

/-! ### Decode: every constructor, by its bit pattern in R75, most significant bit first -/

theorem test_decode_channel_writes :
    decode 0b0000010000000000000000000000000100101100 = .ok (.wrfreq 1 300) ∧
    decode 0b0000100111111111111111111111111111111111 = .ok (.wrvol 2 0xFFFFFFFF) ∧
    decode 0b0000001000000000000000000000000000000001 = .ok (.wract 0 1) ∧
    decode 0b0000011110000000000000000000000000000000 = .ok (.wrmute 1 0x80000000) := by decide

theorem test_decode_global_writes :
    decode 0b0001000000000000000000000000000000000010 = .ok (.wrpulse 2) ∧
    decode 0b0001000110000000000000000000000000000000 = .ok (.wrring 0x80000000) ∧
    decode 0b0001001000000000000000000000000000001010 = .ok (.wrnmode 10) := by decide

theorem test_decode_channel_reads :
    decode 0b0100010000000000000000000000000000000000 = .ok (.rdfreq 1) ∧
    decode 0b0100100100000000000000000000000000000000 = .ok (.rdvol 2) ∧
    decode 0b0100001000000000000000000000000000000000 = .ok (.rdact 0) ∧
    decode 0b0100011100000000000000000000000000000000 = .ok (.rdmute 1) := by decide

theorem test_decode_global_reads :
    decode 0b0101000000000000000000000000000000000000 = .ok .rdpulse ∧
    decode 0b0101000100000000000000000000000000000000 = .ok .rdring ∧
    decode 0b0101001000000000000000000000000000000000 = .ok .rdnmode ∧
    decode 0b0101001100000000000000000000000000000000 = .ok .rdlfsr ∧
    decode 0b0101010000000000000000000000000000000000 = .ok .rdvolmax := by decide

theorem test_decode_diagnostics_sample_reset :
    decode 0b0101101000000000000000000000000000000000 = .ok (.rdcnt 2) ∧
    decode 0b0101110100000000000000000000000000000000 = .ok (.rdamp 1) ∧
    decode 0b1000000000000000000000000000000000000000 = .ok .sample ∧
    decode 0b1100000000000000000000000000000000000000 = .ok .reset := by decide

/-- 95 section 2.6. -/
theorem test_decode_refuses_channel_3 :
    decode 0x0C00000001 = .error .noSuchChannel ∧ decode 0x0F00000000 = .error .noSuchChannel ∧
    decode 0x1B00000001 = .error .noSuchChannel ∧ decode 0x4C00000000 = .error .noSuchChannel ∧
    decode 0x4F00000000 = .error .noSuchChannel ∧ decode 0x5B00000000 = .error .noSuchChannel ∧
    decode 0x5F00000000 = .error .noSuchChannel ∧ decode 0x1F00000000 = .error .noSuchChannel := by decide

/-- 95 section 2.6. -/
theorem test_decode_refuses_addresses :
    decode 0x1300000001 = .error .reservedAddress ∧ decode 0x1400000000 = .error .reservedAddress ∧
    decode 0x1800000000 = .error .reservedAddress ∧ decode 0x1E00000000 = .error .reservedAddress ∧
    decode 0x1500000000 = .error .reservedAddress ∧ decode 0x2000000000 = .error .reservedAddress ∧
    decode 0x3F00000000 = .error .reservedAddress ∧ decode 0x5500000000 = .error .reservedAddress ∧
    decode 0x5700000000 = .error .reservedAddress ∧ decode 0x6000000000 = .error .reservedAddress ∧
    decode 0x7F00000000 = .error .reservedAddress := by decide

/-- 95 section 2.6: the last is R222's order. -/
theorem test_decode_refuses_fields :
    decode 0x5300000001 = .error .reservedEncoding ∧ decode 0x4000000005 = .error .reservedEncoding ∧
    decode 0x8000000001 = .error .reservedEncoding ∧ decode 0x8100000000 = .error .reservedEncoding ∧
    decode 0xC100000000 = .error .reservedEncoding ∧ decode 0xFFFFFFFFFF = .error .reservedEncoding ∧
    decode 0x4C00000001 = .error .reservedEncoding := by decide

theorem test_decodeTableWord_reads_rows :
    decodeTableWord 40 0x5C00000000 = some (.rdamp 0) ∧ decodeTableWord 40 0 = some (.wrfreq 0 0) ∧
    decodeTableWord 40 0x10000000000 = none := by decide

/-! ### Writes and reads (95 sections 1, L1-1, and 2.2) -/

theorem test_wrfreq_saturates :
    shown (exec (.wrfreq 1 0xFFFFFFFB) (scaled 1)) (·.block.ch1.freq) = some 0 ∧
    shown (exec (.wrfreq 1 0x12C) (scaled 1)) (·.block.ch1.freq) = some 255 ∧
    shown (exec (.wrfreq 2 0x80000000) (scaled 1)) (·.block.ch2.freq) = some 0 ∧
    shown (exec (.wrfreq 0 0x7FFFFFFF) (scaled 1)) (·.block.ch0.freq) = some 255 := by decide

theorem test_wrvol_saturates :
    shown (exec (.wrvol 0 0xFFFFFFFF) (scaled 1)) (·.block.ch0.vol) = some 0 ∧
    shown (exec (.wrvol 0 7) (scaled 1)) (·.block.ch0.vol) = some 7 ∧
    shown (exec (.wrvol 1 16) (scaled 1)) (·.block.ch1.vol) = some 15 := by decide

theorem test_wract_nonzero :
    shown (exec (.wract 2 0x80000000) (scaled 1)) (·.block.ch2.active) = some true ∧
    shown (exec (.wract 2 0) (scaled 1)) (·.block.ch2.active) = some false := by decide

theorem test_wrmute_nonzero :
    shown (exec (.wrmute 1 5) (scaled 1)) (·.block.ch1.muted) = some true ∧
    shown (exec (.wrmute 1 5) (scaled 1)) (·.block.ch0.muted) = some false := by decide

theorem test_wrpulse_and_wrring :
    shown (exec (.wrpulse 2) (scaled 1)) (·.block.pulse) = some true ∧
    shown (exec (.wrring 0x80000000) (scaled 1)) (·.block.ring) = some true := by decide

theorem test_wrnmode_reseeds :
    shown (exec (.wrnmode 4) (scaled 1)) (·.block.lfsr) = some 0xF ∧
    shown (exec (.wrnmode 3) (sounding 1 false false (bank 0 0 0) (bank 0 0 0) (bank 0 0 0))) (·.block.lfsr) =
      some 7 := by decide

theorem test_wrnmode_refuses :
    refusal (exec (.wrnmode 5) (scaled 1)) = some .noiseWidthNotLegal ∧
    refusal (exec (.wrnmode 0) (scaled 1)) = some .noiseWidthNotLegal ∧
    refusal (exec (.wrnmode 0xFFFFFFFF) (scaled 1)) = some .noiseWidthNotLegal := by decide

theorem test_channel_reads_after_reset :
    shown (exec (.rdfreq 0) (scaled 1)) said = some (some (.read 0)) ∧
    shown (exec (.rdvol 0) (scaled 1)) said = some (some (.read 0xF)) ∧
    shown (exec (.rdact 0) (scaled 1)) said = some (some (.read 0)) ∧
    shown (exec (.rdmute 0) (scaled 1)) said = some (some (.read 0)) := by decide

theorem test_global_reads_after_reset :
    shown (exec .rdpulse (scaled 1)) said = some (some (.read 0)) ∧
    shown (exec .rdring (scaled 1)) said = some (some (.read 0)) ∧
    shown (exec .rdnmode (scaled 1)) said = some (some (.read 0xA)) ∧
    shown (exec .rdlfsr (scaled 1)) said = some (some (.read 0x3FF)) ∧
    shown (exec .rdvolmax (scaled 1)) said = some (some (.read 0xF)) := by decide

/-- R134's example: S = -1, a held -15 reads as 0xFFFFFFF1. -/
theorem test_rdcnt_and_rdamp :
    shown (exec (.rdamp 0) (sounding (-1) false false (bank 0 0 0xFFFFFFF1) (bank 0 0 0) (bank 0 0 0))) said =
      some (some (.read 0xFFFFFFF1)) ∧
    shown (exec (.rdcnt 1) (sounding 1 false false (bank 0 0 0) (bank 9 7 0) (bank 0 0 0))) said =
      some (some (.read 7)) := by decide

/-! ### The shift register (95 section 1, L1-9) -/

theorem test_lfsr_taps :
    lfsrStep .w3 0x7 = 0x6 ∧ lfsrStep .w4 0xF = 0xE ∧ lfsrStep .w10 0x3FF = 0x3FE ∧ lfsrStep .w10 0x203 = 0x007 := by
  decide

/-! ### SAMPLE (95 section 2.4: the third sample's noise bit is the step of 4, which is 1) -/

theorem test_sample_additive_saturates :
    shown (exec .sample (sounding 1000 false false (bank 0 0 0) (bank 0 0 0) (bank 0 0 0))) said =
      some (some (.sample (BitVec.ofInt 16 32767) 30000 30000 30000)) := by decide

theorem test_sample_ring_multiplies :
    shown (exec .sample (sounding (-2) false true (bank 0 0 0) (bank 0 0 0) (bank 0 0 0))) said =
      some (some (.sample 870 (BitVec.ofInt 32 (-60)) (BitVec.ofInt 32 (-60)) (BitVec.ofInt 32 (-60)))) := by decide

/-- R163 at its boundary: from `cnt` 1 the square of f = 2 holds, from `cnt` 2 it wraps and toggles. -/
theorem test_square_boundary :
    shown (exec .sample (sounding 1 false false (bank 0 0 0) (bank 2 1 0) (bank 0 0 0))) (·.block.ch1) =
      some (bank 2 2 0) ∧
    shown (exec .sample (sounding 1 false false (bank 0 0 0) (bank 2 2 0) (bank 0 0 0))) (·.block.ch1) =
      some (bank 2 0 15) := by decide

/-- 95 section 2.3, f = 0, L = 8: the count 7 wraps to 0, which is high. -/
theorem test_pulse_boundary :
    shown (exec .sample (sounding 1 true false (bank 0 7 0) (bank 0 0 0) (bank 0 0 0))) (·.block.ch0) =
      some (bank 0 0 15) ∧
    shown (exec .sample (sounding 1 true false (bank 0 6 0) (bank 0 0 0) (bank 0 0 0))) (·.block.ch0) =
      some (bank 0 7 0) := by decide

/-- 95 section 1, L1-3: 4 steps to 1, whose bit 0 is 1. -/
theorem test_noise_boundary :
    shown (exec .sample (sounding 1 false false (bank 0 0 0) (bank 0 0 0) (bank 1 1 0)))
      (fun t => (t.block.lfsr, t.block.ch2.cnt, t.block.ch2.amp)) = some (1, 0, 15) ∧
    shown (exec .sample (sounding 1 false false (bank 0 0 0) (bank 0 0 0) (bank 1 0 0)))
      (fun t => (t.block.lfsr, t.block.ch2.cnt, t.block.ch2.amp)) = some (4, 1, 0) := by decide

/-! ### RESET and the port -/

theorem test_reset_keeps_the_record :
    shown (exec .reset (recordRefusal .noSuchChannel 0x0C00000001 (sounding 1 true true (bank 9 7 5) (bank 9 7 5)
      (bank 9 7 5)))) (fun t => (t.refused, t.block.lfsr, t.block.ch1.vol, t.block.ch1.freq, t.block.pulse)) =
      some (true, 0x3FF, 15, 0, false) := by decide

theorem test_step_from_power_on :
    shown (step (issue [0x0000000005] State.powerOn)) (·.refusals) = some [⟨.notStarted, 0x0000000005⟩] ∧
    shown (step (issue [0xC000000000] State.powerOn)) (·.started) = some true := by decide

theorem test_step_records_the_refusal :
    shown (step (issue [0x1200000005, 0x5200000000] (scaled 1))) (fun t => (t.refusals, t.host, t.block.lfsr)) =
      some ([⟨.noiseWidthNotLegal, 0x1200000005⟩], [0x5200000000], 0x3FF) := by decide

theorem test_withFetchWord_runs_the_word :
    shown (step (State.reset.withFetchWord 40 0x5400000000)) said = some (some (.read 15)) ∧
    shown (step (State.reset.withFetchWord 40 0x8000000000)) said = some (some (.sample 0 0 0 0)) := by decide

/-! ### The assembler (R79, R80) -/

theorem test_pseudo :
    expandPseudo (.volume 0 99) = some [.wrvol 0 99] ∧ expandPseudo (.noteon 3) = none ∧
    (expandPseudo (.samples 2)).map assemble = some [0x8000000000, 0x8000000000] ∧
    asmValue (-5) = some 0xFFFFFFFB ∧ asmValue 4294967296 = none := by decide

/-! ### Witnesses: what meets the hypotheses of the statements -/

/-- All channels sounding, as squares. -/
def squares : State := sounding 100 false false (bank 2 2 0) (bank 2 1 1500) (bank 1 1 0)

/-- Channel 0 in pulse mode, at the end of its cycle, ring on. -/
def pulsing : State := sounding 100 true true (bank 2 15 0) (bank 2 2 0) (bank 1 0 0)

/-- At rest and about to sound, everything at 0. -/
def resting : State := sounding 100 false false (bank 2 0 0) (bank 2 0 0) (bank 1 0 0)

theorem witness_EncodedTransactionDecodesToItself : (Instr.wrfreq 2 7).wellFormed = true := by decide

theorem witness_DecodedWordIsTheTransactionsOwn : decode 0x0800000007 = .ok (.wrfreq 2 7) := by decide

theorem witness_OpcodeMapIsDecodedRowByRow :
    ((0x0C00000000 : Txn).extractLsb' 32 8).toNat = 0x0C ∧
    (kindNum 0x5300000001 ≠ 0 ∧ dataOf 0x5300000001 ≠ 0) ∧
    ((scaled 1).started = true ∧ (5 : Word).toInt ≠ 3 ∧ (5 : Word).toInt ≠ 4 ∧ (5 : Word).toInt ≠ 10) := by decide

theorem witness_StepPerformsTheDecodedTransaction :
    (issue [0x1200000005] (scaled 1)).host = [0x1200000005] ∧ decode 0x1200000005 = .ok (.wrnmode 5) ∧
    refusal (exec (.wrnmode 5) (scaled 1)) = some .noiseWidthNotLegal ∧ Refusal.noiseWidthNotLegal.ofSpec = true ∧
    decode 0x1200000003 = .ok (.wrnmode 3) ∧ shown (exec (.wrnmode 3) (scaled 1)) (·.block.lfsr) = some 7 := by decide

theorem witness_StepRecordsAnUndecodableWord :
    (issue [0x0C00000001] (scaled 1)).host = [0x0C00000001] ∧ decode 0x0C00000001 = .error .noSuchChannel := by decide

theorem witness_StepHoldsWhenNoTransactionIsLeft : State.reset.host = [] := by decide

/-- One word per branch, at the ends of the address ranges. -/
theorem witness_FirstApplicableReasonIsReported :
    (State.powerOn.started = false ∧ (0xC000000001 : Txn) ≠ 0xC000000000) ∧
    (BadFields 0x4C00000001 ∧ BadFields 0x8100000000) ∧
    (NamesChannel3 0x0C00000000 ∧ NamesChannel3 0x0F00000000 ∧ NamesChannel3 0x5B00000000 ∧
      NamesChannel3 0x1F00000000) ∧ BadWidth 0x1200000005 := by decide

theorem witness_FirstApplicableReasonIsReported_addresses :
    (BadAddress 0x1300000000 ∧ BadAddress 0x1A00000000 ∧ BadAddress 0x1E00000000 ∧ BadAddress 0x5500000000) ∧
    (BadAddress 0x5700000000 ∧ BadAddress 0x2000000000 ∧ BadAddress 0x7F00000000) := by
  refine ⟨⟨?_, ?_, ?_, ?_⟩, ?_, ?_, ?_⟩ <;> decide

theorem witness_FirstApplicableReasonIsReported_none :
    State.reset.started = true ∧ ¬BadFields 0x5300000000 ∧ ¬NamesChannel3 0x5300000000 ∧ ¬BadAddress 0x5300000000 ∧
    ¬BadWidth 0x5300000000 := by decide

theorem witness_StepOnlyAddsToTheRecord :
    shown (step (issue [0x5400000000] (recordRefusal .noSuchChannel 0x0C00000001 (scaled 1))))
      (fun t => (t.refused, t.responses, t.host)) = some (true, [.read 15], []) := by decide

theorem witness_ResponsesFollowTheKind :
    shown (step (issue [0x0000000005] (scaled 1))) (fun t => (t.refusals, kindNum 0x0000000005)) = some ([], 0) ∧
    shown (step (issue [0x4000000000] (scaled 1))) (fun t => (t.refusals, kindNum 0x4000000000)) = some ([], 1) ∧
    shown (step (issue [0x8000000000] (scaled 1))) (fun t => (t.refusals, kindNum 0x8000000000)) = some ([], 2) ∧
    shown (step (issue [0x0C00000000] (scaled 1))) (·.refusals) = some [⟨.noSuchChannel, 0x0C00000000⟩] := by decide

theorem witness_OnlyResetIsAcceptedBeforeTheFirstReset :
    State.powerOn.started = false ∧ (0x0000000005 : Txn) ≠ 0xC000000000 := by decide

theorem witness_ResetLeavesTheResetValues :
    kindNum 0xC000000001 = 3 ∧ dataOf 0xC000000001 ≠ 0 ∧ (scaled 1).started = true := by decide

theorem witness_EveryStepKeepsTheInvariant :
    Inv (issue [0x8000000000] squares) ∧
    shown (step (issue [0x8000000000] squares)) (·.block.ch0.amp) = some 1500 := by decide

/-- The one hypothesis of the six register writes, of the channel reads and of WrittenValuesReadBackSaturated. -/
theorem witness_started : squares.started = true := by decide

theorem witness_GlobalReadsRespondWithTheRegister :
    squares.started = true ∧ Inv squares ∧ kindNum 0x5300000001 = 1 ∧ dataOf 0x5300000001 ≠ 0 := by decide

theorem witness_WriteNoiseModeReseeds :
    (3 : Word).toInt = 3 ∧ (4 : Word).toInt = 4 ∧ (10 : Word).toInt = 10 ∧
    ((2 : Word).toInt ≠ 3 ∧ (2 : Word).toInt ≠ 4 ∧ (2 : Word).toInt ≠ 10) ∧ squares.started = true := by decide

theorem witness_WritesAreIdempotent :
    isWrite (.wrnmode 3) = true ∧ shown (exec (.wrnmode 3) squares) (·.block.lfsr) = some 7 := by decide

theorem witness_DiagnosticReadsShowTheHiddenState :
    Inv squares ∧ squares.started = true ∧
    (sounding (-1) false false (bank 0 0 0xFFFFFFF1) (bank 0 0 0) (bank 0 0 0)).block.ch0.amp.toInt = -15 := by decide

theorem witness_ReadsChangeNothingAndRepeat :
    isRead .rdlfsr = true ∧ isRead (.rdcnt 1) = true ∧ Responds .rdlfsr squares 4 ∧
    shown (execAll [.rdcnt 1, .rdvolmax] squares) (·.block.lfsr) = some 4 := ⟨rfl, rfl, rfl, by decide⟩

theorem witness_EachFlagHasOneWriter :
    Instr.wrpulse 1 ≠ .reset ∧ shown (exec (.wrpulse 1) squares) (·.block.pulse) = some true ∧
    squares.block.pulse = false ∧ Instr.wrring 1 ≠ .reset ∧
    shown (exec (.wrring 1) squares) (·.block.ring) = some true ∧ squares.block.ring = false ∧
    shown (exec (.wract 1 0) squares) (·.block.ch1.active) = some false ∧ squares.block.ch1.active = true ∧
    shown (exec (.wrmute 1 1) squares) (·.block.ch1.muted) = some true ∧ squares.block.ch1.muted = false := by decide

theorem witness_EachRegisterHasItsWriters :
    shown (exec (.wrfreq 0 9) squares) (·.block.ch0.freq) = some 9 ∧ squares.block.ch0.freq = 2 ∧
    shown (exec (.wrvol 0 9) squares) (·.block.ch0.vol) = some 9 ∧ squares.block.ch0.vol = 15 ∧
    shown (exec .sample squares) (·.block.ch0.cnt) = some 0 ∧ squares.block.ch0.cnt = 2 ∧
    shown (exec (.wrnmode 10) squares) (·.block.nwidth) = some .w10 ∧ squares.block.nwidth = .w3 ∧
    shown (exec .sample squares) (·.block.lfsr) = some 1 ∧ squares.block.lfsr = 4 := by decide

theorem witness_SampleRespondsWithTheClampedMix :
    squares.started = true ∧ Inv squares ∧ Inv pulsing ∧ pulsing.block.ring = true ∧ squares.block.ring = false ∧
    kindNum 0x8100000000 = 2 ∧ addrNum 0x8100000000 ≠ 0 ∧ dataOf 0x8000000001 ≠ 0 := by decide

theorem witness_GatedOutChannelIsFrozenAndSilent :
    (scaled 1).started = true ∧ (getChan .ch2 (scaled 1).block).active = false ∧
    (setMuted true (bank 1 1 15)).muted = true := by decide

/-- Both sides of the comparison, on both square channels. -/
theorem witness_SquareChannelCountsAndToggles :
    squares.started = true ∧ Inv squares ∧ squares.block.pulse = false ∧
    (squares.block.ch0.active = true ∧ squares.block.ch0.muted = false ∧
      squares.block.ch0.cnt.toNat + 1 > squares.block.ch0.freq.toNat) ∧
    (squares.block.ch1.active = true ∧ squares.block.ch1.muted = false ∧
      squares.block.ch1.cnt.toNat + 1 ≤ squares.block.ch1.freq.toNat) := by decide

/-- The last count of the cycle and the one before. -/
theorem witness_PulseChannelFollowsItsCycle :
    pulsing.started = true ∧ Inv pulsing ∧ pulsing.block.pulse = true ∧ pulsing.block.ch0.active = true ∧
    pulsing.block.ch0.muted = false ∧ pulsing.block.ch0.cnt.toNat + 1 = 4 * (pulsing.block.ch0.freq.toNat + 2) ∧
    Inv (sounding 100 true false (bank 2 14 0) (bank 2 2 0) (bank 1 0 0)) := by decide

theorem witness_NoiseChannelStepsTheLfsrOnAWrap :
    squares.started = true ∧ Inv squares ∧ Inv pulsing ∧ squares.block.ch2.active = true ∧
    squares.block.ch2.muted = false ∧ squares.block.ch2.cnt.toNat + 1 > squares.block.ch2.freq.toNat ∧
    pulsing.block.ch2.cnt.toNat + 1 ≤ pulsing.block.ch2.freq.toNat := by decide

theorem witness_GateOrderIsNotObservable : Chan.ch0 ≠ .ch1 ∧ Chan.ch0 ≠ .ch2 := by decide

theorem witness_SilentBlockSamplesZero :
    (scaled 1).started = true ∧ (getChan .ch0 (scaled 1).block).active = false ∧
    (getChan .ch1 (scaled 1).block).active = false ∧ (getChan .ch2 (scaled 1).block).active = false := by decide

theorem witness_RingSilencesBothTones :
    pulsing.started = true ∧ Inv pulsing ∧ pulsing.block.ring = true ∧
    shown (exec .sample (sounding 100 true true (bank 2 5 0) (bank 2 2 0) (bank 1 0 0))) (·.block.ch0.amp) = some 0 := by
  decide

theorem witness_LfsrStepsByItsTaps :
    shown (exec (.wrfreq 0 1) squares) (·.block.lfsr) = some 4 ∧ Instr.wrfreq 0 1 ≠ .sample ∧
    Instr.wrfreq 0 1 ≠ .reset ∧ squares.block.lfsr = 4 := by decide

theorem witness_LfsrVisitsEveryNonzeroState :
    0 < 1 ∧ 1 < 2 ^ widthBits .w3 - 1 ∧ 1 ≤ (7 : BitVec 10).toNat ∧ (7 : BitVec 10).toNat ≤ 2 ^ widthBits .w3 - 1 := by
  decide

theorem witness_SquareWavePeriod :
    resting.started = true ∧ resting.cfg.Legal ∧ resting.block.pulse = false ∧
    resting.block.ch0.active = true ∧ resting.block.ch0.muted = false ∧ resting.block.ch0.cnt = 0 ∧
    resting.block.ch0.amp = 0 ∧ resting.block.ch0.vol.toNat * resting.cfg.outputScale ≠ 0 := by decide

theorem witness_PulseWaveDuty :
    -(2 ^ 26) ≤ (100 : Int) ∧ (100 : Int) ≤ 2 ^ 26 ∧ (bank 2 15 0).cnt.toNat < 4 * ((bank 2 15 0).freq.toNat + 2) := by
  decide

theorem witness_NoiseRate :
    resting.started = true ∧ resting.cfg.Legal ∧ resting.block.ch2.active = true ∧
    resting.block.ch2.muted = false ∧ resting.block.ch2.cnt = 0 ∧ resting.block.ch2.amp = 0 := by decide

theorem witness_GatedOutSamplesMightNotHaveHappened :
    (scaled 1).started = true ∧ (getChan .ch2 (scaled 1).block).active = false ∧
    shown (execAll [.wrmute 2 0, .wract 2 1, .sample] (scaled 1)) (·.block.ch2.active) = some true := by decide

/-- A new frequency below the counter and one above it, as a square and as a pulse. -/
theorem witness_FrequencyWriteIsComparedAtTheNextSample :
    squares.started = true ∧ Inv squares ∧ Inv pulsing ∧ squares.block.ch0.active = true ∧
    squares.block.ch0.muted = false ∧ squares.block.pulse = false ∧ pulsing.block.pulse = true ∧
    pulsing.block.ch0.active = true ∧ pulsing.block.ch0.muted = false := by decide

theorem witness_PulseSwitchCarriesTheCounterOver :
    squares.started = true ∧ Inv squares ∧ squares.block.ch0.active = true ∧ squares.block.ch0.muted = false := by
  decide

theorem witness_IntermediateValuesFitTheirWidths :
    Inv squares ∧ shown (exec .sample squares) (·.block.ch0.amp) = some 1500 ∧
    ((15 : Int) * 2 ^ 26 ≤ 15 * 2 ^ 26 ∧ -(15 * 2 ^ 26) ≤ (15 : Int) * 2 ^ 26) := by decide

theorem witness_NonnegativeScaleGivesNonnegativeSamples :
    squares.started = true ∧ Inv squares ∧ 0 ≤ squares.cfg.outputScale := by decide

theorem witness_SaturationPoints : (0 : Int) < 728 ∧ (0 : Int) < 12 := by decide

theorem witness_PseudoInstructionsExpand : asmValue (-5) = some 0xFFFFFFFB := by decide

end Sys2Proof.Tests
end

/-! SUPPORT and proofs. The port of 00_scope.md section 4: the kind of a word against the transaction it decodes to, what
a performed transaction of each kind leaves, the reasons a refusal can have, and the statements these settle. -/

/-! ### The kind of a decoded transaction (R71) -/

namespace Sys2Proof

open Sys2Proof.Safety

theorem isWrite_of_writeOf {d : Word} {r : Reg} {i : Instr} (h : writeOf d r = .ok i) : isWrite i = true := by
  cases r with
  | freq | vol | active | muted | pulse | ring | nwidth => cases h; rfl
  | lfsr | volmax | cnt | amp => cases h

theorem isRead_readOf (r : Reg) : isRead (readOf r) = true := by cases r <;> rfl

theorem isWrite_of_decodeWrite {a : BitVec 6} {d : Word} {i : Instr} (h : decodeWrite a d = .ok i) :
    isWrite i = true := by
  unfold decodeWrite at h
  split at h
  · cases h
  · exact isWrite_of_writeOf h

theorem isRead_of_decodeRead {a : BitVec 6} {d : Word} {i : Instr} (h : decodeRead a d = .ok i) :
    isRead i = true := by
  unfold decodeRead at h
  split at h
  · split at h
    · cases h
    · cases h
      exact isRead_readOf _
  · cases h

theorem eq_of_decodeBare {i j : Instr} {a : BitVec 6} {d : Word} (h : decodeBare i a d = .ok j) : j = i := by
  unfold decodeBare at h
  split at h
  · cases h; rfl
  · cases h

/-- Field `k` of a word that decodes says the kind of its transaction (R71). -/
theorem kind_of_decode {w : Txn} {i : Instr} (h : decode w = .ok i) :
    (kindNum w = 0 ∧ isWrite i = true) ∨ (kindNum w = 1 ∧ isRead i = true) ∨
      (kindNum w = 2 ∧ i = .sample) ∨ (kindNum w = 3 ∧ i = .reset) := by
  have hk : kindNum w < 4 := (kindField w).isLt
  unfold decode at h
  split at h
  · exact .inl ⟨‹_›, isWrite_of_decodeWrite h⟩
  · exact .inr (.inl ⟨‹_›, isRead_of_decodeRead h⟩)
  · exact .inr (.inr (.inl ⟨‹_›, eq_of_decodeBare h⟩))
  · next h0 h1 h2 =>
    have hne : kindNum w ≠ 0 ∧ kindNum w ≠ 1 ∧ kindNum w ≠ 2 := ⟨h0, h1, h2⟩
    have hk3 : kindNum w = 3 := by omega
    exact .inr (.inr (.inr ⟨hk3, eq_of_decodeBare h⟩))

end Sys2Proof

namespace Sys2Proof.Machine

open Sys2Proof.Safety

/-! ### What a performed transaction of each kind leaves -/

/-- A WR that is performed changes the block alone (R55). -/
theorem exec_next_of_isWrite {i : Instr} {s t : State} (hi : isWrite i = true) (h : exec i s = .next t) :
    ∃ f, t = mapBlock f s := by
  cases i with
  | wrfreq | wrvol | wract | wrmute =>
    obtain ⟨-, j, -, ht⟩ := writeChannel_next h
    exact ⟨_, ht⟩
  | wrpulse | wrring =>
    obtain ⟨-, ht⟩ := writeGlobal_next h
    exact ⟨_, ht⟩
  | wrnmode =>
    obtain ⟨-, w, -, ht⟩ := execWrnmode_next h
    exact ⟨_, ht⟩
  | _ => cases hi

/-- Every RD is one of the two shared register reads (R101, R106, R126 to R134). -/
theorem exec_of_isRead {i : Instr} (hi : isRead i = true) (s : State) :
    (∃ c f, exec i s = readChannel c f s) ∨ ∃ f, exec i s = readGlobal f s := by
  cases i with
  | rdfreq c => exact .inl ⟨c, fun k => zext32 k.freq, rfl⟩
  | rdvol c => exact .inl ⟨c, fun k => zext32 k.vol, rfl⟩
  | rdact c => exact .inl ⟨c, fun k => flagWord k.active, rfl⟩
  | rdmute c => exact .inl ⟨c, fun k => flagWord k.muted, rfl⟩
  | rdcnt c => exact .inl ⟨c, fun k => zext32 k.cnt, rfl⟩
  | rdamp c => exact .inl ⟨c, fun k => k.amp, rfl⟩
  | rdpulse => exact .inr ⟨fun k => flagWord k.pulse, rfl⟩
  | rdring => exact .inr ⟨fun k => flagWord k.ring, rfl⟩
  | rdnmode => exact .inr ⟨fun k => BitVec.ofNat 32 (widthBits k.nwidth), rfl⟩
  | rdlfsr => exact .inr ⟨fun k => zext32 k.lfsr, rfl⟩
  | rdvolmax => exact .inr ⟨fun _ => BitVec.ofInt 32 volMax, rfl⟩
  | _ => cases hi

/-- An RD that is performed responds and changes nothing else (R136). -/
theorem exec_next_of_isRead {i : Instr} {s t : State} (hi : isRead i = true) (h : exec i s = .next t) :
    ∃ v, t = respond v s := by
  rcases exec_of_isRead hi s with ⟨c, f, hread⟩ | ⟨f, hread⟩
  · obtain ⟨-, j, -, ht⟩ := readChannel_next (hread.symm.trans h)
    exact ⟨_, ht⟩
  · obtain ⟨-, ht⟩ := readGlobal_next (hread.symm.trans h)
    exact ⟨_, ht⟩

/-- What the transaction of a word leaves when it is performed, by the word's kind (R8, R71). -/
theorem exec_next_of_decode {w : Txn} {i : Instr} {s t : State} (hd : decode w = .ok i) (h : exec i s = .next t) :
    (kindNum w = 0 ∧ ∃ f, t = mapBlock f s) ∨ (kindNum w = 1 ∧ ∃ v, t = respond v s) ∨
      (kindNum w = 2 ∧ t.refusals = s.refusals ∧ ∃ y o0 o1 o2, t.responses = s.responses ++ [.sample y o0 o1 o2]) ∨
      (kindNum w = 3 ∧ t = { s with block := Block.afterReset s.cfg.resetVol, started := true }) := by
  rcases kind_of_decode hd with ⟨hk, hi⟩ | ⟨hk, hi⟩ | ⟨hk, rfl⟩ | ⟨hk, rfl⟩
  · exact .inl ⟨hk, exec_next_of_isWrite hi h⟩
  · exact .inr (.inl ⟨hk, exec_next_of_isRead hi h⟩)
  · obtain ⟨-, -, -, hr, -, -, hy⟩ := execSample_next h
    exact .inr (.inr (.inl ⟨hk, hr, hy⟩))
  · cases h
    exact .inr (.inr (.inr ⟨hk, rfl⟩))

/-! ### The reasons of a refusal -/

/-- Where it refuses, `a` refuses for one of the five reasons of R220. -/
def RefusesBySpec (a : Result) : Prop := ∀ r, a = .refused r → r.ofSpec = true

theorem refusesBySpec_next (t : State) : RefusesBySpec (.next t) := fun _ h => nomatch h

theorem refusesBySpec_refused {r : Refusal} (hr : r.ofSpec = true) : RefusesBySpec (.refused r) := by
  intro q h
  cases h
  exact hr

theorem refusesBySpec_whenStarted (s : State) {a : Result} (ha : RefusesBySpec a) :
    RefusesBySpec (whenStarted s a) := by
  unfold whenStarted
  split
  · exact ha
  · exact refusesBySpec_refused rfl

theorem refusesBySpec_withChannel (c : BitVec 2) {a : Chan → Result} (ha : ∀ j, RefusesBySpec (a j)) :
    RefusesBySpec (withChannel c a) := by
  unfold withChannel
  split
  · exact ha _
  · exact refusesBySpec_refused rfl

theorem refusesBySpec_writeChannel (c : BitVec 2) (f : Channel → Channel) (s : State) :
    RefusesBySpec (writeChannel c f s) :=
  refusesBySpec_whenStarted s (refusesBySpec_withChannel c fun _ => refusesBySpec_next _)

theorem refusesBySpec_readChannel (c : BitVec 2) (f : Channel → Word) (s : State) :
    RefusesBySpec (readChannel c f s) :=
  refusesBySpec_whenStarted s (refusesBySpec_withChannel c fun _ => refusesBySpec_next _)

theorem refusesBySpec_writeGlobal (f : Block → Block) (s : State) : RefusesBySpec (writeGlobal f s) :=
  refusesBySpec_whenStarted s (refusesBySpec_next _)

theorem refusesBySpec_readGlobal (f : Block → Word) (s : State) : RefusesBySpec (readGlobal f s) :=
  refusesBySpec_whenStarted s (refusesBySpec_next _)

theorem refusesBySpec_execWrnmode (d : Word) (s : State) : RefusesBySpec (execWrnmode d s) := by
  refine refusesBySpec_whenStarted s ?_
  split
  · exact refusesBySpec_next _
  · exact refusesBySpec_refused rfl

theorem refusesBySpec_exec_of_isRead {i : Instr} (hi : isRead i = true) (s : State) : RefusesBySpec (exec i s) := by
  rcases exec_of_isRead hi s with ⟨c, f, hread⟩ | ⟨f, hread⟩ <;> rw [hread]
  · exact refusesBySpec_readChannel c f s
  · exact refusesBySpec_readGlobal f s

/-- No transaction is refused for want of a meaning in the model. -/
theorem refusesBySpec_exec (i : Instr) (s : State) : RefusesBySpec (exec i s) := by
  cases i with
  | wrfreq | wrvol | wract | wrmute => exact refusesBySpec_writeChannel _ _ s
  | wrpulse | wrring => exact refusesBySpec_writeGlobal _ s
  | wrnmode d => exact refusesBySpec_execWrnmode d s
  | sample => exact refusesBySpec_whenStarted s (refusesBySpec_next _)
  | reset => exact refusesBySpec_next _
  | _ => exact refusesBySpec_exec_of_isRead rfl s

theorem ofSpec_refusalOf (e : DecodeError) : (refusalOf e).ofSpec = true := by cases e <;> rfl

theorem transact_of_decode {w : Txn} {i : Instr} (h : decode w = .ok i) (s : State) : transact w s = exec i s := by
  simp [transact, h]

theorem refusesBySpec_transact (w : Txn) (s : State) : RefusesBySpec (transact w s) := by
  unfold transact
  split
  · exact refusesBySpec_exec _ s
  · refine refusesBySpec_refused ?_
    split
    · exact ofSpec_refusalOf _
    · rfl

/-! ### One transaction settled -/

theorem settle_of_next {w : Txn} {s t : State} (h : transact w s = .next t) : settle w s = .next t := by
  simp [settle, h]

theorem settle_of_refused {w : Txn} {s : State} {r : Refusal} (h : transact w s = .refused r)
    (hr : r.ofSpec = true) : settle w s = .next (recordRefusal r w s) := by
  simp [settle, h, hr]

/-- Every word leaves a next state: its own, or the one with the refusal recorded (R9; log 3). -/
theorem exists_settle_next (w : Txn) (s : State) : ∃ t, settle w s = .next t := by
  cases h : transact w s with
  | next t => exact ⟨t, settle_of_next h⟩
  | fault f => exact nomatch f
  | refused r => exact ⟨_, settle_of_refused h (refusesBySpec_transact w s r h)⟩

theorem step_of_nil {s : State} (h : s.host = []) : step s = .next s := performNext_nil h

theorem step_of_cons {s : State} {w : Txn} {rest : List Txn} (h : s.host = w :: rest) :
    step s = settle w { s with host := rest } := performNext_cons h

end Sys2Proof.Machine

/-! ### The statements settled -/

namespace Sys2Proof.Proofs

open Sys2Proof.Machine Sys2Proof.Safety

/-- Settles O8: no transaction faults, and every reason a refusal can have is one the step records. -/
theorem everyStepAnswersANextState : Obligations.EveryStepAnswersANextState := by
  intro s
  cases hs : s.host with
  | nil => exact ⟨s, step_of_nil hs⟩
  | cons w rest =>
    rw [step_of_cons hs]
    exact exists_settle_next w _

/-- Settles O11: the refusals stay the same exactly where the transaction is performed, and what it leaves then follows
the kind of its word. -/
theorem responsesFollowTheKind : Obligations.ResponsesFollowTheKind := by
  intro s t w rest hs h
  rcases step_next h with ⟨hnil, -⟩ | ⟨w', rest', hcons, hstep⟩
  · rw [hs] at hnil
    cases hnil
  rw [hs] at hcons
  cases hcons
  rcases hstep with ⟨i, hd, hi⟩ | ⟨r, rfl⟩
  · rcases exec_next_of_decode hd hi with ⟨hk, f, rfl⟩ | ⟨hk, v, rfl⟩ | ⟨hk, hr, hy⟩ | ⟨hk, rfl⟩
    · simp [hk]
    · simp [hk]
    · exact ⟨fun _ => ⟨by simp [hk], by simp [hk], fun _ => hy⟩, fun hne => absurd hr hne⟩
    · simp [hk]
  · simp

/-- Settles O5: the word decodes to the transaction, so the step settles what `exec` answers. -/
theorem stepPerformsTheDecodedTransaction : Obligations.StepPerformsTheDecodedTransaction := by
  intro s w rest i hs hd
  rw [step_of_cons hs]
  have htr := transact_of_decode hd { s with host := rest }
  exact ⟨fun t ht => settle_of_next (htr.trans ht), fun r hr hspec => settle_of_refused (htr.trans hr) hspec⟩

/-- Settles O7: with an empty host list nothing is performed. -/
theorem stepHoldsWhenNoTransactionIsLeft : Obligations.StepHoldsWhenNoTransactionIsLeft :=
  fun _ hs => step_of_nil hs

end Sys2Proof.Proofs

/-! SUPPORT and proofs. The state of 10_state.md: what each transaction but RESET does to the block, who writes which
register, what a step keeps of the record, and the invariant from reset on. -/

namespace Sys2Proof.Machine

open Sys2Proof.Safety

/-! ### One bank after a write to a bank -/

theorem getChan_mapChan (i j : Chan) (f : Channel → Channel) (k : Block) :
    getChan i (mapChan j f k) = if i = j then f (getChan i k) else getChan i k := by
  split
  · next hij => rw [hij, getChan_mapChan_same]
  · next hij => exact getChan_mapChan_ne hij f k

/-- A write to a bank that is seen in a bank is a write to that bank. -/
theorem eq_of_getChan_mapChan_ne {α : Type} {p : Channel → α} {i j : Chan} {f : Channel → Channel} {k : Block}
    (h : p (getChan i (mapChan j f k)) ≠ p (getChan i k)) : i = j :=
  by_contra fun hij => h (by rw [getChan_mapChan_ne hij])

@[simp] theorem getChan_setPulse (j : Chan) (b : Bool) (k : Block) : getChan j (setPulse b k) = getChan j k := by
  cases j <;> rfl

@[simp] theorem getChan_setRing (j : Chan) (b : Bool) (k : Block) : getChan j (setRing b k) = getChan j k := by
  cases j <;> rfl

@[simp] theorem getChan_setMode (j : Chan) (w : NoiseWidth) (k : Block) : getChan j (setMode w k) = getChan j k := by
  cases j <;> rfl

/-! ### The settings SAMPLE leaves -/

theorem runs_iff (c : Channel) : runs c = true ↔ c.active = true ∧ c.muted = false := by simp [runs]

@[simp] theorem sampleBlock_freq (S : Int) (j : Chan) (k : Block) :
    (getChan j (sampleBlock S k)).freq = (getChan j k).freq := by rw [sampleBlock_settings]

@[simp] theorem sampleBlock_vol (S : Int) (j : Chan) (k : Block) :
    (getChan j (sampleBlock S k)).vol = (getChan j k).vol := by rw [sampleBlock_settings]

@[simp] theorem sampleBlock_active (S : Int) (j : Chan) (k : Block) :
    (getChan j (sampleBlock S k)).active = (getChan j k).active := by rw [sampleBlock_settings]

@[simp] theorem sampleBlock_muted (S : Int) (j : Chan) (k : Block) :
    (getChan j (sampleBlock S k)).muted = (getChan j k).muted := by rw [sampleBlock_settings]

/-! ### What a transaction other than RESET does to the block -/

/-- At scale `S` the performed transaction takes the first block to the second (R75's rows, RESET's left out). -/
inductive BlockStep (S : Int) : Instr → Block → Block → Prop where
  | wrfreq (j : Chan) (d : Word) (k : Block) :
      BlockStep S (.wrfreq (numberOf j) d) k (mapChan j (setFreq (freqOf d)) k)
  | wrvol (j : Chan) (d : Word) (k : Block) :
      BlockStep S (.wrvol (numberOf j) d) k (mapChan j (setVol (volOf d)) k)
  | wract (j : Chan) (d : Word) (k : Block) :
      BlockStep S (.wract (numberOf j) d) k (mapChan j (setActive (flagOf d)) k)
  | wrmute (j : Chan) (d : Word) (k : Block) :
      BlockStep S (.wrmute (numberOf j) d) k (mapChan j (setMuted (flagOf d)) k)
  | wrpulse (d : Word) (k : Block) : BlockStep S (.wrpulse d) k (setPulse (flagOf d) k)
  | wrring (d : Word) (k : Block) : BlockStep S (.wrring d) k (setRing (flagOf d) k)
  | wrnmode (d : Word) (w : NoiseWidth) (k : Block) (hw : widthOf (sext32 d) = some w) :
      BlockStep S (.wrnmode d) k (setMode w k)
  | read (i : Instr) (k : Block) (hi : isRead i = true) : BlockStep S i k k
  | sample (k : Block) : BlockStep S .sample k (sampleBlock S k)

/-- Every transaction but RESET, where it is performed, does one of these to the block. -/
theorem blockStep_of_exec {i : Instr} {s t : State} (h : exec i s = .next t) (hi : i ≠ .reset) :
    BlockStep s.cfg.outputScale i s.block t.block := by
  cases i with
  | wrfreq c d =>
    obtain ⟨-, j, rfl, rfl⟩ := writeChannel_next h
    exact .wrfreq j d _
  | wrvol c d =>
    obtain ⟨-, j, rfl, rfl⟩ := writeChannel_next h
    exact .wrvol j d _
  | wract c d =>
    obtain ⟨-, j, rfl, rfl⟩ := writeChannel_next h
    exact .wract j d _
  | wrmute c d =>
    obtain ⟨-, j, rfl, rfl⟩ := writeChannel_next h
    exact .wrmute j d _
  | wrpulse d =>
    obtain ⟨-, rfl⟩ := writeGlobal_next h
    exact .wrpulse d _
  | wrring d =>
    obtain ⟨-, rfl⟩ := writeGlobal_next h
    exact .wrring d _
  | wrnmode d =>
    obtain ⟨-, w, hw, rfl⟩ := execWrnmode_next h
    exact .wrnmode d w _ hw
  | sample =>
    obtain ⟨-, hblock, -⟩ := execSample_next h
    rw [hblock]
    exact .sample _
  | reset => exact absurd rfl hi
  | _ =>
    obtain ⟨v, rfl⟩ := exec_next_of_isRead rfl h
    exact .read _ _ rfl

/-! ### The writers of each register (R20, R26, R27, R30) -/

section
variable {S : Int} {i : Instr} {k l : Block} {j : Chan}

theorem wrpulse_of_pulse_ne (e : BlockStep S i k l) (h : l.pulse ≠ k.pulse) : ∃ d, i = .wrpulse d := by
  cases e with
  | wrpulse d => exact ⟨d, rfl⟩
  | _ => simp at h

theorem wrring_of_ring_ne (e : BlockStep S i k l) (h : l.ring ≠ k.ring) : ∃ d, i = .wrring d := by
  cases e with
  | wrring d => exact ⟨d, rfl⟩
  | _ => simp at h

theorem wrnmode_of_nwidth_ne (e : BlockStep S i k l) (h : l.nwidth ≠ k.nwidth) : ∃ d, i = .wrnmode d := by
  cases e with
  | wrnmode d => exact ⟨d, rfl⟩
  | _ => simp at h

theorem sample_or_wrnmode_of_lfsr_ne (e : BlockStep S i k l) (h : l.lfsr ≠ k.lfsr) :
    i = .sample ∨ ∃ d, i = .wrnmode d := by
  cases e with
  | sample => exact .inl rfl
  | wrnmode d => exact .inr ⟨d, rfl⟩
  | _ => simp at h

theorem wrfreq_of_freq_ne (e : BlockStep S i k l) (h : (getChan j l).freq ≠ (getChan j k).freq) :
    ∃ d, i = .wrfreq (numberOf j) d := by
  cases e with
  | wrfreq _ d => exact ⟨d, by rw [eq_of_getChan_mapChan_ne h]⟩
  | _ => simp [getChan_mapChan, apply_ite Channel.freq] at h

theorem wrvol_of_vol_ne (e : BlockStep S i k l) (h : (getChan j l).vol ≠ (getChan j k).vol) :
    ∃ d, i = .wrvol (numberOf j) d := by
  cases e with
  | wrvol _ d => exact ⟨d, by rw [eq_of_getChan_mapChan_ne h]⟩
  | _ => simp [getChan_mapChan, apply_ite Channel.vol] at h

theorem wract_of_active_ne (e : BlockStep S i k l) (h : (getChan j l).active ≠ (getChan j k).active) :
    ∃ d, i = .wract (numberOf j) d := by
  cases e with
  | wract _ d => exact ⟨d, by rw [eq_of_getChan_mapChan_ne h]⟩
  | _ => simp [getChan_mapChan, apply_ite Channel.active] at h

theorem wrmute_of_muted_ne (e : BlockStep S i k l) (h : (getChan j l).muted ≠ (getChan j k).muted) :
    ∃ d, i = .wrmute (numberOf j) d := by
  cases e with
  | wrmute _ d => exact ⟨d, by rw [eq_of_getChan_mapChan_ne h]⟩
  | _ => simp [getChan_mapChan, apply_ite Channel.muted] at h

/-- R30: no transaction but SAMPLE and RESET writes a counter or an amplitude. -/
theorem cnt_amp_of_not_sample (e : BlockStep S i k l) (hi : i ≠ .sample) (j : Chan) :
    (getChan j l).cnt = (getChan j k).cnt ∧ (getChan j l).amp = (getChan j k).amp := by
  cases e with
  | sample => exact absurd rfl hi
  | _ => simp [getChan_mapChan, apply_ite Channel.cnt, apply_ite Channel.amp]

theorem sample_and_runs_of_cnt_or_amp_ne (e : BlockStep S i k l)
    (h : (getChan j l).cnt ≠ (getChan j k).cnt ∨ (getChan j l).amp ≠ (getChan j k).amp) :
    i = .sample ∧ runs (getChan j k) = true := by
  have hi : i = .sample := by
    by_contra hi
    obtain ⟨hcnt, hamp⟩ := cnt_amp_of_not_sample e hi j
    exact h.elim (absurd hcnt) (absurd hamp)
  refine ⟨hi, ?_⟩
  subst hi
  cases e with
  | read _ _ hi => cases hi
  | sample =>
    by_contra hr
    simp [sampleBlock_of_silent (Bool.eq_false_iff.mpr hr)] at h

end

/-! ### What a transaction keeps of the record -/

/-- A performed transaction keeps the parameters, the host's list and the refusals, and only adds responses. -/
theorem exec_next_record {i : Instr} {s t : State} (h : exec i s = .next t) :
    t.cfg = s.cfg ∧ t.host = s.host ∧ t.refusals = s.refusals ∧ s.responses <+: t.responses ∧
      (s.started = true → t.started = true) := by
  cases i with
  | wrfreq | wrvol | wract | wrmute | wrpulse | wrring | wrnmode =>
    obtain ⟨f, rfl⟩ := exec_next_of_isWrite rfl h
    simp
  | sample =>
    obtain ⟨-, -, hstarted, hrefusals, hcfg, hhost, y, o0, o1, o2, hy⟩ := execSample_next h
    simp [hstarted, hrefusals, hcfg, hhost, hy]
  | reset =>
    cases h
    simp
  | _ =>
    obtain ⟨v, rfl⟩ := exec_next_of_isRead rfl h
    simp

/-- R32: the mark is never cleared while the list of refusals only grows. -/
theorem refused_of_prefix {s t : State} (h : s.refusals <+: t.refusals) (hs : s.refused = true) : t.refused = true := by
  simp only [State.refused, Bool.not_eq_true', List.isEmpty_eq_false_iff] at hs ⊢
  exact fun ht => hs (List.prefix_nil.mp (ht ▸ h))

/-! ### The shift register stays legal (R103) -/

/-- R102: the register is doubled, the feedback joins it, and the width's bits are kept. -/
theorem lfsrStep_toNat (w : NoiseWidth) (l : BitVec 10) :
    (lfsrStep w l).toNat = (2 * l.toNat + (feedback w l).toNat) % 2 ^ widthBits w := by
  have hdvd : 2 ^ widthBits w ∣ 2 ^ 10 := pow_dvd_pow 2 (by cases w <;> decide)
  have hbit : (feedback w l).toNat < 2 ^ 1 := Bool.toNat_lt _
  have hshift : (l <<< 1).toNat = (l.toNat % 2 ^ 9) <<< 1 := by
    rw [BitVec.toNat_shiftLeft, Nat.shiftLeft_eq, Nat.shiftLeft_eq]
    omega
  have hor : (l <<< 1 ||| BitVec.ofNat 10 (feedback w l).toNat).toNat =
      (2 * l.toNat + (feedback w l).toNat) % 2 ^ 10 := by
    rw [BitVec.toNat_or, hshift, BitVec.toNat_ofNat, Nat.mod_eq_of_lt (a := (feedback w l).toNat) (by omega),
      ← Nat.shiftLeft_add_eq_or_of_lt hbit, Nat.shiftLeft_eq]
    omega
  rw [lfsrStep, BitVec.toNat_and, hor, widthMask_toNat, Nat.and_two_pow_sub_one_eq_mod, Nat.mod_mod_of_dvd _ hdvd]

/-- The upper tap of each width is its top bit, and of a register with that bit alone the feedback is 1. -/
theorem feedback_top (w : NoiseWidth) : feedback w (BitVec.ofNat 10 (2 ^ (widthBits w - 1))) = true := by
  cases w <;> decide

/-- Doubling could empty a legal register only where its top bit stands alone, and there the feedback is 1. -/
theorem lfsrStep_ne_zero {w : NoiseWidth} {l : BitVec 10} (h : 1 ≤ l.toNat) (h' : l.toNat ≤ 2 ^ widthBits w - 1) :
    (lfsrStep w l).toNat ≠ 0 := by
  intro hzero
  rw [lfsrStep_toNat] at hzero
  have hbit := Bool.toNat_lt (feedback w l)
  have htop : l.toNat = 2 ^ (widthBits w - 1) ∧ (feedback w l).toNat = 0 := by
    cases w <;> simp only [widthBits] at * <;> omega
  have hl : l = BitVec.ofNat 10 (2 ^ (widthBits w - 1)) := by
    rw [← htop.1, BitVec.ofNat_toNat, BitVec.setWidth_eq]
  rw [hl, feedback_top] at htop
  exact absurd htop.2 (by decide)

theorem lfsrOk_lfsrStep {k : Block} (h : LfsrOk k) : LfsrOk { k with lfsr := lfsrStep k.nwidth k.lfsr } := by
  obtain ⟨hlow, hhigh⟩ := h
  refine ⟨Nat.one_le_iff_ne_zero.mpr (lfsrStep_ne_zero hlow hhigh), ?_⟩
  have := Nat.mod_lt (2 * k.lfsr.toNat + (feedback k.nwidth k.lfsr).toNat) (Nat.two_pow_pos (widthBits k.nwidth))
  simp only [lfsrStep_toNat]
  omega

/-- R100: the seed of every width is legal. -/
theorem lfsrOk_setMode (w : NoiseWidth) (k : Block) : LfsrOk (setMode w k) := by
  simp only [LfsrOk, setMode_lfsr, setMode_nwidth, widthMask_toNat, le_refl, and_true]
  cases w <;> decide

/-- The noise channel's gate leaves the register or steps it once (R165). -/
theorem lfsrOk_gate_ch2 {S : Int} {k : Block} (h : LfsrOk k) : LfsrOk (gate S .ch2 k) := by
  cases hr : runs (getChan .ch2 k)
  · rwa [gate_of_silent hr]
  · rw [gate_of_runs hr, updateChan]
    rcases noiseUpdate_cases S k with ⟨-, hk⟩ | ⟨-, hk⟩ <;> rw [hk]
    · exact lfsrOk_lfsrStep h
    · exact h

/-! ### Counters and amplitudes stay in range (R23, R24) -/

/-- The largest count of each channel: the pulse cycle's last at `freq` 255, or the largest frequency (R23). -/
def cntMax : Chan → Nat
  | .ch0 => 1027
  | .ch1 | .ch2 => 255

theorem blockOk_iff (S : Int) (k : Block) :
    BlockOk S k ↔ (∀ j, BankOk S (cntMax j) (getChan j k)) ∧ LfsrOk k := by
  constructor
  · rintro ⟨h0, h1, h2, hl⟩
    exact ⟨fun j => by cases j <;> assumption, hl⟩
  · rintro ⟨hbank, hl⟩
    exact ⟨hbank .ch0, hbank .ch1, hbank .ch2, hl⟩

theorem freq_le_cntMax (c : Channel) (j : Chan) : c.freq.toNat ≤ cntMax j := by
  have := c.freq.isLt
  cases j <;> simp only [cntMax] <;> omega

/-- R164: a pulse counter stays below the cycle length, which is at most 1028. -/
theorem pulseCount_le (c : Channel) : (pulseCount c).toNat ≤ cntMax .ch0 := by
  have hfreq := c.freq.isLt
  unfold pulseCount
  split
  · exact Nat.zero_le _
  · simp only [pulseLength, cntMax] at *
    omega

section
variable {S : Int} (hlow : -(2 ^ 26) ≤ S) (hhigh : S ≤ 2 ^ 26)
include hlow hhigh

theorem ampIsLevel_of_level {c : Channel} {v : BitVec 4} (h : c.amp = level S v) : AmpIsLevel S c :=
  .inr ⟨⟨v.toNat, v.isLt⟩, by rw [h, level_toInt hlow hhigh]⟩

/-- R165: a gated level is 0 or the level. -/
theorem ampIsLevel_of_noiseLevel {c : Channel} {b : Bool} {v : BitVec 4} (h : c.amp = noiseLevel S b v) :
    AmpIsLevel S c := by
  cases b
  · exact .inl (by simpa [noiseLevel] using h)
  · exact ampIsLevel_of_level hlow hhigh (by simpa [noiseLevel, level] using h)

/-- R163: a square counter that has not passed the frequency is at most 255. -/
theorem bankOk_squareUpdate (j : Chan) {c : Channel} (h : AmpIsLevel S c) :
    BankOk S (cntMax j) (squareUpdate S c) := by
  unfold squareUpdate
  split
  · refine ⟨Nat.zero_le _, ?_⟩
    by_cases ha : c.amp = 0
    · exact ampIsLevel_of_level hlow hhigh (if_pos ha)
    · exact .inl (if_neg ha)
  · next hcnt => exact ⟨(Nat.le_of_not_lt hcnt).trans (freq_le_cntMax c j), h⟩

theorem bankOk_pulseUpdate (c : Channel) : BankOk S (cntMax .ch0) (pulseUpdate S c) := by
  refine ⟨pulseCount_le c, ?_⟩
  by_cases hhi : (pulseCount c).toNat ≤ c.freq.toNat
  · exact ampIsLevel_of_level hlow hhigh (if_pos hhi)
  · exact .inl (if_neg hhi)

theorem bankOk_noiseUpdate {k : Block} (h : AmpIsLevel S k.ch2) : BankOk S (cntMax .ch2) (noiseUpdate S k).ch2 := by
  rcases noiseUpdate_cases S k with ⟨-, hk⟩ | ⟨hwraps, hk⟩ <;> rw [hk]
  · exact ⟨Nat.zero_le _, ampIsLevel_of_noiseLevel hlow hhigh rfl⟩
  · have hcnt : (bump k.ch2).cnt.toNat ≤ k.ch2.freq.toNat := Nat.le_of_not_lt (of_decide_eq_false hwraps)
    exact ⟨hcnt.trans (freq_le_cntMax _ _), h⟩

/-- Each gate keeps its own bank in range. -/
theorem bankOk_gate {j : Chan} {k : Block} (h : BankOk S (cntMax j) (getChan j k)) :
    BankOk S (cntMax j) (getChan j (gate S j k)) := by
  cases hr : runs (getChan j k)
  · rwa [gate_of_silent hr]
  · rw [gate_of_runs hr]
    cases j with
    | ch0 =>
      simp only [updateChan]
      split
      · exact bankOk_pulseUpdate hlow hhigh _
      · exact bankOk_squareUpdate hlow hhigh .ch0 h.2
    | ch1 => exact bankOk_squareUpdate hlow hhigh .ch1 h.2
    | ch2 => exact bankOk_noiseUpdate hlow hhigh h.2

theorem blockOk_sampleBlock {k : Block} (h : BlockOk S k) : BlockOk S (sampleBlock S k) := by
  obtain ⟨hbank, hl⟩ := (blockOk_iff S k).mp h
  refine (blockOk_iff S _).mpr ⟨fun j => ?_, ?_⟩
  · rw [getChan_sampleBlock]
    exact bankOk_gate hlow hhigh (hbank j)
  · simpa [LfsrOk] using lfsrOk_gate_ch2 (S := S) hl

end

/-- A write of settings alone keeps every bank in range (R30, R55). -/
theorem blockOk_mapChan {S : Int} {j : Chan} {f : Channel → Channel} {k : Block}
    (hcnt : ∀ c, (f c).cnt = c.cnt) (hamp : ∀ c, (f c).amp = c.amp) (h : BlockOk S k) : BlockOk S (mapChan j f k) := by
  obtain ⟨hbank, hl⟩ := (blockOk_iff S k).mp h
  refine (blockOk_iff S _).mpr ⟨fun i => ?_, by simpa [LfsrOk] using hl⟩
  rw [getChan_mapChan]
  split
  · simpa only [BankOk, AmpIsLevel, hcnt, hamp] using hbank i
  · exact hbank i

/-- R33: the registers after RESET are in range. -/
theorem blockOk_afterReset (S : Int) (v : BitVec 4) : BlockOk S (Block.afterReset v) := by
  have hbank : ∀ n, BankOk S n (Channel.afterReset v) := fun n => ⟨Nat.zero_le n, .inl rfl⟩
  have hl : 1 ≤ (0x3FF#10).toNat ∧ (0x3FF#10).toNat ≤ 2 ^ widthBits .w10 - 1 := by decide
  exact ⟨hbank _, hbank _, hbank _, hl⟩

theorem blockOk_of_blockStep {S : Int} (hlow : -(2 ^ 26) ≤ S) (hhigh : S ≤ 2 ^ 26) {i : Instr} {k l : Block}
    (e : BlockStep S i k l) (h : BlockOk S k) : BlockOk S l := by
  cases e with
  | wrfreq | wrvol | wract | wrmute => exact blockOk_mapChan (fun _ => rfl) (fun _ => rfl) h
  | wrpulse | wrring | read => exact h
  | wrnmode _ w =>
    obtain ⟨h0, h1, h2, -⟩ := h
    exact ⟨h0, h1, h2, lfsrOk_setMode w k⟩
  | sample => exact blockOk_sampleBlock hlow hhigh h

theorem inv_of_exec {i : Instr} {s t : State} (h : Inv s) (he : exec i s = .next t) : Inv t := by
  obtain ⟨hlegal, hblock⟩ := h
  obtain ⟨hcfg, -⟩ := exec_next_record he
  refine ⟨hcfg ▸ hlegal, ?_⟩
  rw [hcfg]
  by_cases hi : i = .reset
  · subst hi
    cases he
    exact blockOk_afterReset _ _
  · exact blockOk_of_blockStep hlegal.1 hlegal.2 (blockStep_of_exec he hi) hblock

theorem reference_legal : Config.reference.Legal := by
  simp only [Config.Legal, Config.reference]
  omega

/-! ### The words of RESET (R71, R76) -/

theorem decodeBare_of_reserved {i : Instr} {a : BitVec 6} {d : Word} (h : a ≠ 0 ∨ d ≠ 0) :
    decodeBare i a d = .error .reservedEncoding :=
  if_neg fun hz => h.elim (absurd hz.1) (absurd hz.2)

/-- R76: a RESET with a field that must be 0 and is not decodes to nothing. -/
theorem decode_of_kind_reset {w : Txn} (hk : kindNum w = 3) (h : addrNum w ≠ 0 ∨ dataOf w ≠ 0) :
    decode w = .error .reservedEncoding := by
  have hkind : kindField w = 3 := BitVec.eq_of_toNat_eq hk
  have haddr : addrField w ≠ 0 ∨ dataField w ≠ 0 := h.imp_left fun ha hz => ha (congrArg BitVec.toNat hz)
  rw [← mkTxn_fields w, hkind, decode_reset, decodeBare_of_reserved haddr]

end Sys2Proof.Machine

/-! ### The statements settled -/

namespace Sys2Proof.Proofs

open Sys2Proof.Machine Sys2Proof.Safety

/-- Settles O16: a step holds the block, records a refusal beside it, or performs a transaction that keeps it in
range. -/
theorem everyStepKeepsTheInvariant : Obligations.EveryStepKeepsTheInvariant := by
  intro s t h hstep
  rcases step_next hstep with ⟨-, rfl⟩ | ⟨w, rest, -, ⟨i, -, he⟩ | ⟨r, rfl⟩⟩
  · exact h
  · exact inv_of_exec (s := { s with host := rest }) h he
  · exact h

/-- Settles O10: neither a performed nor a refused transaction takes anything from the record. -/
theorem stepOnlyAddsToTheRecord : Obligations.StepOnlyAddsToTheRecord := by
  intro s t hstep
  rcases step_next hstep with ⟨hnil, rfl⟩ | ⟨w, rest, hcons, ⟨i, -, he⟩ | ⟨r, rfl⟩⟩
  · simp [hnil]
  · obtain ⟨hcfg, hhost, hrefusals, hresponses, hstarted⟩ := exec_next_record he
    have hprefix : s.refusals <+: t.refusals := hrefusals ▸ List.prefix_rfl
    exact ⟨hcfg, by rw [hhost, hcons]; rfl, hprefix, hresponses, refused_of_prefix hprefix, hstarted⟩
  · have hprefix : s.refusals <+: (recordRefusal r w { s with host := rest }).refusals := List.prefix_append _ _
    exact ⟨rfl, by simp [hcons], hprefix, List.prefix_rfl, refused_of_prefix hprefix, id⟩

/-- Settles O30: each flag against the blocks a transaction other than RESET can leave. -/
theorem eachFlagHasOneWriter : Obligations.EachFlagHasOneWriter := by
  intro i s t h hi
  have e := blockStep_of_exec h hi
  exact ⟨wrpulse_of_pulse_ne e, wrring_of_ring_ne e, fun _ => wract_of_active_ne e, fun _ => wrmute_of_muted_ne e⟩

/-- Settles O31: each register against the blocks a transaction other than RESET can leave. -/
theorem eachRegisterHasItsWriters : Obligations.EachRegisterHasItsWriters := by
  intro i s t h hi
  have e := blockStep_of_exec h hi
  refine ⟨fun _ => wrfreq_of_freq_ne e, fun _ => wrvol_of_vol_ne e, fun j hj => ?_, wrnmode_of_nwidth_ne e,
    sample_or_wrnmode_of_lfsr_ne e⟩
  obtain ⟨hsample, hruns⟩ := sample_and_runs_of_cnt_or_amp_ne e hj
  exact ⟨hsample, (runs_iff _).mp hruns⟩

/-- Settles O13: RESET writes the same block whatever it finds. -/
theorem resetLeavesTheResetValues : Obligations.ResetLeavesTheResetValues := by
  intro s
  refine ⟨by decide, fun w hk h hs => ?_, _, rfl, fun j => ?_, ?_⟩
  · simp [transact, decode_of_kind_reset hk h, hs, refusalOf]
  · cases j <;> exact ⟨rfl, rfl, rfl, rfl, rfl, rfl⟩
  · exact ⟨rfl, rfl, rfl, rfl, rfl, rfl, rfl, rfl, rfl, rfl, rfl⟩

/-- Settles O14: the waiting word decodes to RESET, which leaves `State.reset`. -/
theorem powerOnThenResetIsTheResetState : Obligations.PowerOnThenResetIsTheResetState := by
  have hdecode : decode 0xC000000000 = .ok .reset := by decide
  refine ⟨rfl, ?_, rfl, rfl, rfl, rfl⟩
  rw [step_of_cons (issue_host _ _)]
  exact settle_of_next (transact_of_decode hdecode _)

/-- Settles O15: the reference chip's scale is a clamp to R6's bound, and both states hold the block RESET leaves. -/
theorem invariantHoldsAtReset : Obligations.InvariantHoldsAtReset :=
  ⟨⟨reference_legal, blockOk_afterReset _ _⟩, reference_legal, blockOk_afterReset _ _⟩

end Sys2Proof.Proofs

/-! SUPPORT and proofs. The registers as memory, 20_memory.md: a write performed twice (R55). -/

namespace Sys2Proof.Machine

/-! ### One update after another -/

theorem mapBlock_mapBlock (f g : Block → Block) (s : State) :
    mapBlock f (mapBlock g s) = mapBlock (fun k => f (g k)) s := rfl

theorem mapChan_mapChan (j : Chan) (f g : Channel → Channel) (k : Block) :
    mapChan j f (mapChan j g k) = mapChan j (fun c => f (g c)) k := by
  simp [mapChan]

/-! ### A write performed again in the state it left -/

/-- A WRNMODE of a legal width is the write of a global register (R100). -/
theorem execWrnmode_of_widthOf {d : Word} {w : NoiseWidth} (hw : widthOf (sext32 d) = some w) (s : State) :
    execWrnmode d s = writeGlobal (setMode w) s := by
  simp [execWrnmode, writeGlobal, hw]

theorem writeGlobal_again {f : Block → Block} {s t : State} (hf : ∀ k, f (f k) = f k)
    (h : writeGlobal f s = .next t) : writeGlobal f t = .next t := by
  obtain ⟨hs, rfl⟩ := writeGlobal_next h
  have hs' : (mapBlock f s).started = true := hs
  rw [writeGlobal_started hs', mapBlock_mapBlock, funext hf]

theorem writeChannel_again {c : BitVec 2} {f : Channel → Channel} {s t : State} (hf : ∀ c, f (f c) = f c)
    (h : writeChannel c f s = .next t) : writeChannel c f t = .next t := by
  obtain ⟨hs, j, rfl, rfl⟩ := writeChannel_next h
  have hbank : ∀ k, mapChan j f (mapChan j f k) = mapChan j f k := fun k => by rw [mapChan_mapChan, funext hf]
  have hs' : (mapBlock (mapChan j f) s).started = true := hs
  rw [writeChannel_numberOf hs', mapBlock_mapBlock, funext hbank]

end Sys2Proof.Machine

/-! ### The statement settled -/

namespace Sys2Proof.Proofs

open Sys2Proof.Machine Sys2Proof.Safety

/-- Settles O24: every WR is one of the two shared register writes, of a value its operand fixes, so that writing it
over itself changes nothing; a WRNMODE reseeds to the seed it left. -/
theorem writesAreIdempotent : Obligations.WritesAreIdempotent := by
  intro i s t hi h
  cases i with
  | wrfreq | wrvol | wract | wrmute => exact writeChannel_again (fun _ => rfl) h
  | wrpulse | wrring => exact writeGlobal_again (fun _ => rfl) h
  | wrnmode d =>
    obtain ⟨-, w, hw, -⟩ := execWrnmode_next h
    have hwrite := execWrnmode_of_widthOf hw
    exact (hwrite t).trans (writeGlobal_again (fun _ => rfl) ((hwrite s).symm.trans h))
  | _ => cases hi

end Sys2Proof.Proofs

/-! SUPPORT and proofs. The transaction word, 30_encoding.md: decoder and encoder are inverse to each other, the rows of
the opcode map, and the assembler's operands and pseudo-instructions. -/

namespace Sys2Proof

open Sys2Proof.Safety

/-! ### The address map against the registers (R28, R72, R74) -/

/-- The channel field of a register's address, where it has one (R72). -/
def Reg.channelField : Reg → Option (BitVec 2)
  | .freq c | .vol c | .active c | .muted c | .cnt c | .amp c => some c
  | .pulse | .ring | .nwidth | .lfsr | .volmax => none

/-- The address of a register (R28). -/
def regAddr : Reg → BitVec 6
  | .freq c => 0b00#2 ++ c ++ 0b00#2
  | .vol c => 0b00#2 ++ c ++ 0b01#2
  | .active c => 0b00#2 ++ c ++ 0b10#2
  | .muted c => 0b00#2 ++ c ++ 0b11#2
  | .pulse => 0x10
  | .ring => 0x11
  | .nwidth => 0x12
  | .lfsr => 0x13
  | .volmax => 0x14
  | .cnt c => 0b0110#4 ++ c
  | .amp c => 0b0111#4 ++ c

/-- An address that names a register is that register's, and names no channel 3. -/
theorem regAddr_of_mem_regAt :
    ∀ a : BitVec 6, ∀ r ∈ (regAt a).toOption, r.channelField ≠ some 3 ∧ regAddr r = a := by decide

theorem regAt_regAddr {r : Reg} (h : r.channelField ≠ some 3) : regAt (regAddr r) = .ok r := by
  cases r with
  | freq c | vol c | active c | muted c | cnt c | amp c =>
    revert c
    decide
  | pulse | ring | nwidth | lfsr | volmax => rfl

theorem regAt_eq_ok_iff {a : BitVec 6} {r : Reg} :
    regAt a = .ok r ↔ r.channelField ≠ some 3 ∧ regAddr r = a := by
  constructor
  · intro h
    exact regAddr_of_mem_regAt a r (by simp [h, Except.toOption])
  · rintro ⟨hr, rfl⟩
    exact regAt_regAddr hr

/-! ### The words of a register's WR and RD (R75) -/

theorem channelField_of_writeOf {d : Word} {r : Reg} {i : Instr} (h : writeOf d r = .ok i) :
    i.channelField = r.channelField := by
  cases r with
  | freq | vol | active | muted | pulse | ring | nwidth => cases h; rfl
  | lfsr | volmax | cnt | amp => cases h

theorem encode_of_writeOf {d : Word} {r : Reg} {i : Instr} (h : writeOf d r = .ok i) :
    encode i = mkTxn 0 (regAddr r) d := by
  cases r with
  | freq | vol | active | muted | pulse | ring | nwidth => cases h; rfl
  | lfsr | volmax | cnt | amp => cases h

theorem channelField_readOf (r : Reg) : (readOf r).channelField = r.channelField := by cases r <;> rfl

theorem encode_readOf (r : Reg) : encode (readOf r) = mkTxn 1 (regAddr r) 0 := by cases r <;> rfl

/-- Every transaction is the WR or the RD of a register, SAMPLE or RESET (R71). -/
theorem instr_kinds (i : Instr) :
    (∃ d r, writeOf d r = .ok i) ∨ (∃ r, readOf r = i) ∨ i = .sample ∨ i = .reset := by
  cases i with
  | wrfreq c d => exact .inl ⟨d, .freq c, rfl⟩
  | wrvol c d => exact .inl ⟨d, .vol c, rfl⟩
  | wract c d => exact .inl ⟨d, .active c, rfl⟩
  | wrmute c d => exact .inl ⟨d, .muted c, rfl⟩
  | wrpulse d => exact .inl ⟨d, .pulse, rfl⟩
  | wrring d => exact .inl ⟨d, .ring, rfl⟩
  | wrnmode d => exact .inl ⟨d, .nwidth, rfl⟩
  | rdfreq c => exact .inr (.inl ⟨.freq c, rfl⟩)
  | rdvol c => exact .inr (.inl ⟨.vol c, rfl⟩)
  | rdact c => exact .inr (.inl ⟨.active c, rfl⟩)
  | rdmute c => exact .inr (.inl ⟨.muted c, rfl⟩)
  | rdpulse => exact .inr (.inl ⟨.pulse, rfl⟩)
  | rdring => exact .inr (.inl ⟨.ring, rfl⟩)
  | rdnmode => exact .inr (.inl ⟨.nwidth, rfl⟩)
  | rdlfsr => exact .inr (.inl ⟨.lfsr, rfl⟩)
  | rdvolmax => exact .inr (.inl ⟨.volmax, rfl⟩)
  | rdcnt c => exact .inr (.inl ⟨.cnt c, rfl⟩)
  | rdamp c => exact .inr (.inl ⟨.amp c, rfl⟩)
  | sample => exact .inr (.inr (.inl rfl))
  | reset => exact .inr (.inr (.inr rfl))

theorem wellFormed_iff {i : Instr} : i.wellFormed = true ↔ i.channelField ≠ some 3 := by
  simp [Instr.wellFormed]

/-! ### What each kind of word decodes to (R77) -/

theorem decodeWrite_eq_ok_iff {a : BitVec 6} {d : Word} {i : Instr} :
    decodeWrite a d = .ok i ↔ ∃ r, regAt a = .ok r ∧ writeOf d r = .ok i := by
  cases h : regAt a <;> simp [decodeWrite, h]

theorem decodeRead_eq_ok_iff {a : BitVec 6} {d : Word} {i : Instr} :
    decodeRead a d = .ok i ↔ d = 0 ∧ ∃ r, regAt a = .ok r ∧ readOf r = i := by
  by_cases hd : d = 0
  · cases h : regAt a <;> simp [decodeRead, hd, h]
  · have hr : decodeRead a d = .error .reservedEncoding := if_neg hd
    exact ⟨fun h => absurd (hr.symm.trans h) nofun, fun h => absurd h.1 hd⟩

theorem decodeBare_eq_ok_iff {i j : Instr} {a : BitVec 6} {d : Word} :
    decodeBare j a d = .ok i ↔ (a = 0 ∧ d = 0) ∧ j = i := by
  unfold decodeBare
  split
  · next h => simp only [Except.ok.injEq, h, and_self, true_and]
  · next h => exact ⟨nofun, fun hz => absurd hz.1 h⟩

/-- A well-formed transaction's word decodes to it. -/
theorem decode_encode {i : Instr} (h : i.wellFormed = true) : decode (encode i) = .ok i := by
  rw [wellFormed_iff] at h
  rcases instr_kinds i with ⟨d, r, hw⟩ | ⟨r, rfl⟩ | rfl | rfl
  · rw [channelField_of_writeOf hw] at h
    rw [encode_of_writeOf hw, decode_write]
    exact decodeWrite_eq_ok_iff.mpr ⟨r, regAt_regAddr h, hw⟩
  · rw [channelField_readOf] at h
    rw [encode_readOf, decode_read]
    exact decodeRead_eq_ok_iff.mpr ⟨rfl, r, regAt_regAddr h, rfl⟩
  · exact (decode_sample 0 0).trans (decodeBare_eq_ok_iff.mpr ⟨⟨rfl, rfl⟩, rfl⟩)
  · exact (decode_reset 0 0).trans (decodeBare_eq_ok_iff.mpr ⟨⟨rfl, rfl⟩, rfl⟩)

/-- What the fields of a decoded word say of its transaction, kind by kind. -/
theorem wellFormed_and_encode_of_decode_mkTxn {k : BitVec 2} {a : BitVec 6} {d : Word} {i : Instr}
    (h : decode (mkTxn k a d) = .ok i) : i.wellFormed = true ∧ encode i = mkTxn k a d := by
  rw [wellFormed_iff]
  have hkind : ∀ k : BitVec 2, k = 0 ∨ k = 1 ∨ k = 2 ∨ k = 3 := by decide
  rcases hkind k with rfl | rfl | rfl | rfl
  · rw [decode_write, decodeWrite_eq_ok_iff] at h
    obtain ⟨r, hr, hw⟩ := h
    obtain ⟨hc, rfl⟩ := regAt_eq_ok_iff.mp hr
    exact ⟨channelField_of_writeOf hw ▸ hc, encode_of_writeOf hw⟩
  · rw [decode_read, decodeRead_eq_ok_iff] at h
    obtain ⟨rfl, r, hr, rfl⟩ := h
    obtain ⟨hc, rfl⟩ := regAt_eq_ok_iff.mp hr
    exact ⟨channelField_readOf r ▸ hc, encode_readOf r⟩
  · rw [decode_sample, decodeBare_eq_ok_iff] at h
    obtain ⟨⟨rfl, rfl⟩, rfl⟩ := h
    exact ⟨by decide, rfl⟩
  · rw [decode_reset, decodeBare_eq_ok_iff] at h
    obtain ⟨⟨rfl, rfl⟩, rfl⟩ := h
    exact ⟨by decide, rfl⟩

/-- R77: the words that decode are the words of the well-formed transactions, each of its own. -/
theorem decode_eq_ok_iff {w : Txn} {i : Instr} : decode w = .ok i ↔ i.wellFormed = true ∧ encode i = w := by
  constructor
  · intro h
    rw [← mkTxn_fields w] at h ⊢
    exact wellFormed_and_encode_of_decode_mkTxn h
  · rintro ⟨hi, rfl⟩
    exact decode_encode hi

/-! ### The opcode map (R75, R76) -/

theorem exists_error_of_forall_ne_ok {w : Txn} (h : ∀ i, decode w ≠ .ok i) : ∃ e, decode w = .error e := by
  cases hd : decode w with
  | ok i => exact absurd hd (h i)
  | error e => exact ⟨e, rfl⟩

/-- Bits 39:32 of a word are its fields `k` and `a`. -/
theorem opcode_mkTxn (k : BitVec 2) (a : BitVec 6) (d : Word) : (mkTxn k a d).extractLsb' 32 8 = k ++ a := by
  refine BitVec.eq_of_getLsbD_eq fun i hi => ?_
  refine Eq.trans ?_ BitVec.getLsbD_append.symm
  simp [getLsbD_mkTxn, hi]

/-- The values of bits 39:32 that the rows of the opcode map take (R75). -/
def rowOpcodes : List Nat :=
  [0x00, 0x04, 0x08, 0x01, 0x05, 0x09, 0x02, 0x06, 0x0A, 0x03, 0x07, 0x0B, 0x10, 0x11, 0x12,
    0x40, 0x44, 0x48, 0x41, 0x45, 0x49, 0x42, 0x46, 0x4A, 0x43, 0x47, 0x4B, 0x50, 0x51, 0x52, 0x53, 0x54,
    0x58, 0x59, 0x5A, 0x5C, 0x5D, 0x5E, 0x80, 0xC0]

/-- The word of a well-formed transaction lies in a row. -/
theorem opcode_encode_mem_rowOpcodes {i : Instr} (h : i.wellFormed = true) :
    ((encode i).extractLsb' 32 8).toNat ∈ rowOpcodes := by
  rw [wellFormed_iff] at h
  cases i with
  | wrfreq c | wrvol c | wract c | wrmute c | rdfreq c | rdvol c | rdact c | rdmute c | rdcnt c | rdamp c =>
    rw [encode, opcode_mkTxn]
    revert c
    simp only [Instr.channelField]
    decide
  | _ =>
    rw [encode, opcode_mkTxn]
    decide

/-- R76: the word of a transaction is a WR's or has no data. -/
theorem kindNum_or_dataOf_encode_eq_zero (i : Instr) : kindNum (encode i) = 0 ∨ dataOf (encode i) = 0 := by
  rcases instr_kinds i with ⟨d, r, hw⟩ | ⟨r, rfl⟩ | rfl | rfl
  · rw [encode_of_writeOf hw]
    exact .inl (congrArg BitVec.toNat (kindField_mkTxn 0 (regAddr r) d))
  · rw [encode_readOf]
    exact .inr (dataField_mkTxn 1 (regAddr r) 0)
  · exact .inr rfl
  · exact .inr rfl

theorem exists_error_of_opcode_not_mem {w : Txn} (h : (w.extractLsb' 32 8).toNat ∉ rowOpcodes) :
    ∃ e, decode w = .error e := by
  refine exists_error_of_forall_ne_ok fun i hd => ?_
  obtain ⟨hi, rfl⟩ := decode_eq_ok_iff.mp hd
  exact h (opcode_encode_mem_rowOpcodes hi)

theorem exists_error_of_data {w : Txn} (hk : kindNum w ≠ 0) (hdata : dataOf w ≠ 0) : ∃ e, decode w = .error e := by
  refine exists_error_of_forall_ne_ok fun i hd => ?_
  obtain ⟨-, rfl⟩ := decode_eq_ok_iff.mp hd
  exact (kindNum_or_dataOf_encode_eq_zero i).elim hk hdata

end Sys2Proof

namespace Sys2Proof.Machine

open Sys2Proof.Safety

/-- R100: a width that is none of the three is refused. -/
theorem execWrnmode_of_widthOf_none {d : Word} {s : State} (hs : s.started = true)
    (hw : widthOf (sext32 d) = none) : execWrnmode d s = .refused .noiseWidthNotLegal := by
  rw [execWrnmode, whenStarted_of_started hs, hw]

theorem widthOf_eq_none {v : Int} (h3 : v ≠ 3) (h4 : v ≠ 4) (h10 : v ≠ 10) : widthOf v = none := by
  simp [widthOf, h3, h4, h10]

/-! ### The assembler's operands (R79) -/

theorem asmChannel_numberOf (j : Chan) : asmChannel (numberOf j).toNat = some (numberOf j) := by cases j <;> rfl

theorem asmValue_eq_some {v : Int} {d : Word} :
    asmValue v = some d ↔ (-(2 ^ 31) ≤ v ∧ v ≤ 2 ^ 32 - 1) ∧ BitVec.ofInt 32 v = d := by
  unfold asmValue
  split
  · next h => simp only [Option.some.injEq, h, and_self, true_and]
  · next h => exact ⟨nofun, fun hv => absurd hv.1 h⟩

theorem asmValue_eq_none {v : Int} : asmValue v = none ↔ v < -(2 ^ 31) ∨ 2 ^ 32 - 1 < v := by
  unfold asmValue
  split
  · simp only [reduceCtorEq, false_iff]
    omega
  · simp only [true_iff]
    omega

theorem asmChannelValue_numberOf (f : BitVec 2 → Word → Instr) (j : Chan) {v : Int} {d : Word}
    (h : asmValue v = some d) : asmChannelValue f (numberOf j).toNat v = some [f (numberOf j) d] := by
  simp [asmChannelValue, asmChannel_numberOf, h]

end Sys2Proof.Machine

/-! ### The statements settled -/

namespace Sys2Proof.Proofs

open Sys2Proof.Machine Sys2Proof.Safety

/-- Settles O1: each transaction is the WR or RD of a register, SAMPLE or RESET, and the address of a register names it
again. -/
theorem encodedTransactionDecodesToItself : Obligations.EncodedTransactionDecodesToItself :=
  fun _ => decode_encode

/-- Settles O2: the address, the register and the data a word decodes by are those its transaction is encoded with. -/
theorem decodedWordIsTheTransactionsOwn : Obligations.DecodedWordIsTheTransactionsOwn :=
  fun _ _ => decode_eq_ok_iff.mp

/-- Settles O3: each row is the encoder's word of its transaction, and by the round trip no other word decodes. -/
theorem opcodeMapIsDecodedRowByRow : Obligations.OpcodeMapIsDecodedRowByRow := by
  refine ⟨fun j d => ?_, fun _ => exists_error_of_opcode_not_mem, fun _ => exists_error_of_data,
    fun d s hs h3 h4 h10 => ?_⟩
  · cases j <;> and_intros <;> exact decode_eq_ok_iff.mpr ⟨rfl, rfl⟩
  · exact execWrnmode_of_widthOf_none hs (widthOf_eq_none h3 h4 h10)

/-- Settles O52: a channel's number and a value in range are the operands each line is built of. -/
theorem pseudoInstructionsExpand : Obligations.PseudoInstructionsExpand := by
  refine ⟨fun v => ⟨asmValue_eq_none, fun d h => (asmValue_eq_some.mp h).2.symm⟩, fun j v d hv => ?_,
    fun _ => rfl, rfl⟩
  have hchannel := asmChannel_numberOf j
  have hline := fun f => asmChannelValue_numberOf f j hv
  have hone : asmValue 1 = some 1 := rfl
  have hzero : asmValue 0 = some 0 := rfl
  exact ⟨asmChannelValue_numberOf _ j hone, asmChannelValue_numberOf _ j hzero, hline _,
    by simp [expandPseudo, hchannel], rfl, hline _, hline _,
    by simp [expandPseudo, hv], by simp [expandPseudo, hv], by simp [expandPseudo, hv]⟩

end Sys2Proof.Proofs

/-! SUPPORT and proofs. The noise generator, 40_noise_lfsr.md: WRNMODE, the writers of the shift register, the bit a
step returns, and the orbit of the all-ones seed. -/

namespace Sys2Proof.Machine

open Function Sys2Proof.Safety

/-! ### The writers of the register, and the bit a step returns (R100, R102, R105) -/

/-- R100: the three legal operands are the widths of the three modes. -/
theorem exists_widthBits_eq {v : Int} (h : v = 3 ∨ v = 4 ∨ v = 10) : ∃ w, v = widthBits w := by
  rcases h with rfl | rfl | rfl
  · exact ⟨.w3, rfl⟩
  · exact ⟨.w4, rfl⟩
  · exact ⟨.w10, rfl⟩

theorem lfsr_eq_of_not_writer {S : Int} {i : Instr} {k l : Block} (e : BlockStep S i k l) (hsample : i ≠ .sample)
    (hmode : ∀ d, i ≠ .wrnmode d) : l.lfsr = k.lfsr := by
  by_contra hne
  rcases sample_or_wrnmode_of_lfsr_ne e hne with hi | ⟨d, hi⟩
  · exact hsample hi
  · exact hmode d hi

/-- R105: the doubled register leaves bit 0 to the feedback, and every width keeps bit 0. -/
theorem lfsrBit_eq_feedback (w : NoiseWidth) (l : BitVec 10) : lfsrBit w l = feedback w l := by
  have hpos : 0 < widthBits w := by cases w <;> decide
  rw [lfsrBit, BitVec.getLsbD, lfsrStep_toNat, Nat.testBit_mod_two_pow]
  cases feedback w l <;> simp [hpos, Nat.testBit_zero]

/-! ### Runs of the register, evaluated turn by turn -/

/-- `n` turns of `g` on a register. The match has each register evaluated to a number before the next turn, so that
`decide` can follow a long run. -/
def turns (g : BitVec 10 → BitVec 10) : Nat → BitVec 10 → BitVec 10
  | 0, l => l
  | n + 1, l =>
    match (g l).toNat with
    | 0 => turns g n 0#10
    | v + 1 => turns g n (BitVec.ofNat 10 (v + 1))

theorem turns_succ (g : BitVec 10 → BitVec 10) (n : Nat) (l : BitVec 10) : turns g (n + 1) l = turns g n (g l) := by
  have hg : BitVec.ofNat 10 (g l).toNat = g l := by simp
  rw [turns]
  split <;> next h => rw [← hg, h]

theorem turns_eq_iterate (g : BitVec 10 → BitVec 10) (n : Nat) : turns g n = g^[n] := by
  induction n with
  | zero => rfl
  | succ n ih =>
    funext l
    rw [turns_succ, ih, iterate_succ_apply]

/-- Whether `m * n` turns lead back can be followed in `n` runs of `m`. -/
theorem isPeriodicPt_mul_iff_turns (g : BitVec 10 → BitVec 10) (m n : Nat) (l : BitVec 10) :
    IsPeriodicPt g (m * n) l ↔ turns (turns g m) n l = l := by
  rw [turns_eq_iterate, turns_eq_iterate, ← iterate_mul]
  rfl

/-! ### The period from the seed (R104) -/

/-- A period is the least one if dividing it by any of its prime factors leaves no period. -/
theorem minimalPeriod_eq_of_primeFactors {α : Type} {f : α → α} {x : α} {n : Nat} (hn : n ≠ 0)
    (hper : IsPeriodicPt f n x) (hdiv : ∀ p ∈ n.primeFactors, ¬IsPeriodicPt f (n / p) x) :
    minimalPeriod f x = n := by
  obtain ⟨c, hc⟩ := hper.minimalPeriod_dvd
  by_contra hne
  have hc1 : c ≠ 1 := fun h => hne (by rw [hc, h, mul_one])
  obtain ⟨p, hp, e, rfl⟩ := Nat.exists_prime_and_dvd hc1
  have hmul : n = p * (minimalPeriod f x * e) := by rw [mul_left_comm, ← hc]
  have hquot : n / p = minimalPeriod f x * e := Nat.div_eq_of_eq_mul_right hp.pos hmul
  exact hdiv p (Nat.mem_primeFactors.mpr ⟨hp, ⟨_, hmul⟩, hn⟩)
    (isPeriodicPt_iff_minimalPeriod_dvd.mpr ⟨e, hquot⟩)

theorem minimalPeriod_lfsrStep_w3 : minimalPeriod (lfsrStep .w3) (widthMask .w3) = 7 := by
  have h1 : ¬IsPeriodicPt (lfsrStep .w3) 1 (widthMask .w3) := by decide
  exact minimalPeriod_eq_of_primeFactors (by decide) (by decide) (by simpa [Nat.primeFactors] using h1)

theorem minimalPeriod_lfsrStep_w4 : minimalPeriod (lfsrStep .w4) (widthMask .w4) = 15 := by
  have h5 : ¬IsPeriodicPt (lfsrStep .w4) 5 (widthMask .w4) := by decide
  have h3 : ¬IsPeriodicPt (lfsrStep .w4) 3 (widthMask .w4) := by decide
  exact minimalPeriod_eq_of_primeFactors (by decide) (by decide) (by simpa [Nat.primeFactors] using ⟨h5, h3⟩)

/-- 1023 is 3 * 11 * 31. -/
theorem minimalPeriod_lfsrStep_w10 : minimalPeriod (lfsrStep .w10) (widthMask .w10) = 1023 := by
  have hturns := fun m n => isPeriodicPt_mul_iff_turns (lfsrStep .w10) m n (widthMask .w10)
  have h1023 : IsPeriodicPt (lfsrStep .w10) 1023 (widthMask .w10) := (hturns 31 33).mpr (by decide)
  have h341 : ¬IsPeriodicPt (lfsrStep .w10) 341 (widthMask .w10) := mt (hturns 31 11).mp (by decide)
  have h93 : ¬IsPeriodicPt (lfsrStep .w10) 93 (widthMask .w10) := mt (hturns 31 3).mp (by decide)
  have h33 : ¬IsPeriodicPt (lfsrStep .w10) 33 (widthMask .w10) := mt (hturns 11 3).mp (by decide)
  exact minimalPeriod_eq_of_primeFactors (by decide) h1023 (by simpa [Nat.primeFactors] using ⟨h341, h93, h33⟩)

theorem minimalPeriod_lfsrStep (w : NoiseWidth) :
    minimalPeriod (lfsrStep w) (widthMask w) = 2 ^ widthBits w - 1 := by
  cases w with
  | w3 => exact minimalPeriod_lfsrStep_w3
  | w4 => exact minimalPeriod_lfsrStep_w4
  | w10 => exact minimalPeriod_lfsrStep_w10

/-! ### The orbit of the seed (R103, R104) -/

/-- R103: the register stays between 1 and all-ones. -/
theorem iterate_lfsrStep_mem_Icc (w : NoiseWidth) (n : Nat) :
    ((lfsrStep w)^[n] (widthMask w)).toNat ∈ Finset.Icc 1 (2 ^ widthBits w - 1) := by
  induction n with
  | zero => exact Finset.mem_Icc.mpr (lfsrOk_setMode w (Block.afterReset 0))
  | succ n ih =>
    rw [iterate_succ_apply']
    have hok := Finset.mem_Icc.mp ih
    exact Finset.mem_Icc.mpr (lfsrOk_lfsrStep (k := { Block.afterReset 0 with nwidth := w, lfsr := _ }) hok)

/-- Within one period the states differ, so as many as there are nonzero states fill them all. -/
theorem exists_iterate_lfsrStep_eq {w : NoiseWidth} {l : BitVec 10} (hlow : 1 ≤ l.toNat)
    (hhigh : l.toNat ≤ 2 ^ widthBits w - 1) :
    ∃ n, n < 2 ^ widthBits w - 1 ∧ (lfsrStep w)^[n] (widthMask w) = l := by
  have hinj : Set.InjOn (fun n => ((lfsrStep w)^[n] (widthMask w)).toNat)
      (Finset.range (2 ^ widthBits w - 1)) := by
    rw [Finset.coe_range, ← minimalPeriod_lfsrStep]
    exact fun m hm n hn h => iterate_injOn_Iio_minimalPeriod hm hn (BitVec.eq_of_toNat_eq h)
  obtain ⟨n, hn, hl⟩ := Finset.surjOn_of_injOn_of_card_le _ (fun n _ => iterate_lfsrStep_mem_Icc w n) hinj (by simp)
    (Finset.mem_Icc.mpr ⟨hlow, hhigh⟩)
  exact ⟨n, Finset.mem_range.mp hn, BitVec.eq_of_toNat_eq hl⟩

end Sys2Proof.Machine

/-! ### The statements settled -/

namespace Sys2Proof.Proofs

open Function Sys2Proof.Machine Sys2Proof.Safety

/-- Settles O40: `lfsrStep_toNat` at each width, and no block that another transaction can leave has a new register. -/
theorem lfsrStepsByItsTaps : Obligations.LfsrStepsByItsTaps := by
  refine ⟨fun l => ⟨lfsrStep_toNat .w10 l, lfsrStep_toNat .w4 l, lfsrStep_toNat .w3 l, fun _ => rfl⟩, ?_⟩
  intro i s t h hsample hreset hmode
  exact lfsr_eq_of_not_writer (blockStep_of_exec h hreset) hsample hmode

/-- Settles O42: the least period of the seed is the number of nonzero states, which its states therefore fill. -/
theorem lfsrVisitsEveryNonzeroState : Obligations.LfsrVisitsEveryNonzeroState := by
  intro w
  refine ⟨?_, fun n hpos hn => ?_, fun l => exists_iterate_lfsrStep_eq⟩
  · rw [← minimalPeriod_lfsrStep, iterate_minimalPeriod]
  · rw [← minimalPeriod_lfsrStep] at hn
    exact not_isPeriodicPt_of_pos_of_lt_minimalPeriod hpos.ne' hn

/-- Settles O23: a legal operand is the width of a mode, which WRNMODE writes with its seed. -/
theorem writeNoiseModeReseeds : Obligations.WriteNoiseModeReseeds := by
  intro d s hs
  refine ⟨decode_eq_ok_iff.mpr ⟨rfl, rfl⟩, fun hd => ?_, fun ⟨h3, h4, h10⟩ => ?_⟩
  · obtain ⟨w, hw⟩ := exists_widthBits_eq hd
    have hexec : exec (.wrnmode d) s = .next (mapBlock (setMode w) s) :=
      (execWrnmode_of_widthOf (widthOf_eq_some.mpr hw) s).trans (writeGlobal_started hs _)
    exact ⟨_, hexec, hw.symm, widthMask_toNat w, rfl, rfl, ⟨rfl, rfl, rfl⟩, ⟨rfl, rfl, rfl, rfl, rfl⟩⟩
  · exact execWrnmode_of_widthOf_none hs (widthOf_eq_none h3 h4 h10)

/-- Settles O41: the bit is the feedback at each width, and the three sequences are run from the seed. -/
theorem lfsrBitSequences : Obligations.LfsrBitSequences :=
  ⟨fun l => ⟨lfsrBit_eq_feedback .w10 l, lfsrBit_eq_feedback .w4 l, lfsrBit_eq_feedback .w3 l, fun _ => rfl⟩,
    by decide, by decide, by decide⟩

end Sys2Proof.Proofs

/-! SUPPORT and proofs. The register accesses of 41_register_access.md: what a write leaves, what a read after a write or
a RESET responds, what a read depends on, and the statements these settle. -/

namespace Sys2Proof.Machine

open Sys2Proof.Safety

/-! ### The frame of a register write (R55) -/

theorem onlyBlockMay_mapBlock (f : Block → Block) (s : State) : OnlyBlockMay s (mapBlock f s) :=
  ⟨rfl, rfl, rfl, rfl, rfl⟩

theorem globalsSame_mapChan (j : Chan) (f : Channel → Channel) (k : Block) : GlobalsSame k (mapChan j f k) :=
  ⟨mapChan_pulse j f k, mapChan_ring j f k, mapChan_nwidth j f k, mapChan_lfsr j f k⟩

theorem onlyBankMay_mapChan (j : Chan) (f : Channel → Channel) (s : State) :
    OnlyBankMay j s (mapBlock (mapChan j f) s) :=
  ⟨onlyBlockMay_mapBlock _ s, globalsSame_mapChan j f s.block, fun _ hi => getChan_mapChan_ne hi f s.block⟩

/-- A write to a bank of a started machine: the bank it leaves, and nothing else changed (R120 to R123). -/
theorem exists_writeChannel_next {s : State} (hs : s.started = true) (j : Chan) (f : Channel → Channel) :
    ∃ t, writeChannel (numberOf j) f s = .next t ∧ getChan j t.block = f (getChan j s.block) ∧ OnlyBankMay j s t :=
  ⟨_, writeChannel_numberOf hs j f, getChan_mapChan_same j f s.block, onlyBankMay_mapChan j f s⟩

/-! ### A read after a write, and after RESET -/

/-- A read of the bank just written responds with what it shows of the written bank. -/
theorem readChannel_after_writeChannel {s : State} (hs : s.started = true) (j : Chan) (f : Channel → Channel)
    (g : Channel → Word) :
    ∃ t, writeChannel (numberOf j) f s = .next t ∧
      readChannel (numberOf j) g t = .next (respond (g (f (getChan j s.block))) t) := by
  obtain ⟨t, hw, hbank, ⟨hstarted, -⟩, -⟩ := exists_writeChannel_next hs j f
  exact ⟨t, hw, by rw [readChannel_numberOf (hstarted.trans hs), hbank]⟩

/-- A global read responds with what it shows of the block the global write left. -/
theorem readGlobal_after_writeGlobal {s : State} (hs : s.started = true) (f : Block → Block) (g : Block → Word) :
    ∃ t, writeGlobal f s = .next t ∧ readGlobal g t = .next (respond (g (f s.block)) t) :=
  ⟨_, writeGlobal_started hs f, readGlobal_started (s := mapBlock f s) hs g⟩

@[simp] theorem getChan_afterReset (j : Chan) (v : BitVec 4) :
    getChan j (Block.afterReset v) = Channel.afterReset v := by cases j <;> rfl

/-- After RESET every bank reads as the reset bank (R33). -/
theorem readChannel_after_reset {s t : State} (h : exec .reset s = .next t) (j : Chan) (g : Channel → Word) :
    readChannel (numberOf j) g t = .next (respond (g (Channel.afterReset s.cfg.resetVol)) t) := by
  cases h
  rw [readChannel_numberOf rfl, getChan_afterReset]

/-- A register narrower than a data word reads as a number that is not negative. -/
theorem zext32_toInt {n : Nat} (h : n < 32) (v : BitVec n) : (zext32 v).toInt = v.toNat := by
  have hn : (zext32 v).toNat = v.toNat := zext32_toNat h.le v
  have hpow : 2 ^ n ≤ 2 ^ 31 := Nat.pow_le_pow_right (by omega) (by omega)
  have hv := v.isLt
  rw [BitVec.toInt_eq_toNat_of_lt (by omega), hn]

/-! ### What a read depends on (R136) -/

theorem respond_inj {v w : Word} {s : State} : respond v s = respond w s ↔ v = w := by simp [respond]

theorem readChannel_eq_respond_iff {c : BitVec 2} {f : Channel → Word} {s : State} {v : Word} :
    readChannel c f s = .next (respond v s) ↔
      s.started = true ∧ ∃ j, c = numberOf j ∧ v = f (getChan j s.block) := by
  constructor
  · intro h
    obtain ⟨hs, j, hc, hv⟩ := readChannel_next h
    exact ⟨hs, j, hc, respond_inj.mp hv⟩
  · rintro ⟨hs, j, rfl, rfl⟩
    exact readChannel_numberOf hs j f

theorem readGlobal_eq_respond_iff {f : Block → Word} {s : State} {v : Word} :
    readGlobal f s = .next (respond v s) ↔ s.started = true ∧ v = f s.block := by
  constructor
  · intro h
    obtain ⟨hs, hv⟩ := readGlobal_next h
    exact ⟨hs, respond_inj.mp hv⟩
  · rintro ⟨hs, rfl⟩
    exact readGlobal_started hs f

theorem readChannel_congr {c : BitVec 2} {f : Channel → Word} {s t : State} {v : Word} (hblock : t.block = s.block)
    (hstarted : t.started = s.started) (h : readChannel c f s = .next (respond v s)) :
    readChannel c f t = .next (respond v t) := by
  rw [readChannel_eq_respond_iff] at h ⊢
  rwa [hblock, hstarted]

theorem readGlobal_congr {f : Block → Word} {s t : State} {v : Word} (hblock : t.block = s.block)
    (hstarted : t.started = s.started) (h : readGlobal f s = .next (respond v s)) :
    readGlobal f t = .next (respond v t) := by
  rw [readGlobal_eq_respond_iff] at h ⊢
  rwa [hblock, hstarted]

/-- What an RD responds depends on the block and the mark `started` alone. -/
theorem responds_congr {i : Instr} {s t : State} {v : Word} (hi : isRead i = true) (hblock : t.block = s.block)
    (hstarted : t.started = s.started) (h : Responds i s v) : Responds i t v := by
  cases i with
  | rdfreq | rdvol | rdact | rdmute | rdcnt | rdamp =>
    simp only [Responds, exec, execRdfreq, execRdvol, execRdact, execRdmute, execRdcnt, execRdamp] at h ⊢
    exact readChannel_congr hblock hstarted h
  | rdpulse | rdring | rdnmode | rdlfsr | rdvolmax =>
    simp only [Responds, exec, execRdpulse, execRdring, execRdnmode, execRdlfsr, execRdvolmax] at h ⊢
    exact readGlobal_congr hblock hstarted h
  | _ => cases hi

theorem execAll_cons_next {i : Instr} {is : List Instr} {s t : State} (h : execAll (i :: is) s = .next t) :
    ∃ u, exec i s = .next u ∧ execAll is u = .next t := by
  unfold execAll at h
  split at h
  · exact ⟨_, ‹_›, h⟩
  · cases h
  · cases h

theorem execAll_reads_keep {is : List Instr} {s t : State} (hreads : ∀ i ∈ is, isRead i = true)
    (h : execAll is s = .next t) : t.block = s.block ∧ t.started = s.started := by
  induction is generalizing s with
  | nil =>
    cases h
    exact ⟨rfl, rfl⟩
  | cons i is ih =>
    obtain ⟨hi, his⟩ := List.forall_mem_cons.mp hreads
    obtain ⟨u, hu, hrest⟩ := execAll_cons_next h
    obtain ⟨v, rfl⟩ := exec_next_of_isRead hi hu
    exact ih (s := respond v s) his hrest

/-! ### Registers in range, and refused accesses -/

/-- R23: no counter passes the last count of the longest pulse cycle. -/
theorem cnt_le_of_inv {s : State} (h : Inv s) (j : Chan) : (getChan j s.block).cnt.toNat ≤ 1027 := by
  obtain ⟨hbank, -⟩ := (blockOk_iff _ _).mp h.2
  have hmax : cntMax j ≤ 1027 := by cases j <;> decide
  exact (hbank j).1.trans hmax

theorem lfsrOk_of_inv {s : State} (h : Inv s) : LfsrOk s.block := by
  obtain ⟨-, -, -, -, hl⟩ := h
  exact hl

/-- R76: an RD with data decodes to nothing. -/
theorem decode_of_kind_read {w : Txn} (hk : kindNum w = 1) (h : dataOf w ≠ 0) :
    decode w = .error .reservedEncoding := by
  have hkind : kindField w = 1 := BitVec.eq_of_toNat_eq hk
  rw [← mkTxn_fields w, hkind, decode_read]
  exact if_neg h

/-- R135: a WR to the shift register decodes to nothing. -/
theorem decode_write_lfsr (d : Word) : decode (0x13#8 ++ d) = .error .reservedAddress :=
  decode_write 0x13 d

/-- R74: a channel field of 3 is refused by every transaction that has one. -/
theorem exec_of_channelField_three {i : Instr} {s : State} (hs : s.started = true) (hi : i.channelField = some 3) :
    exec i s = .refused .noSuchChannel := by
  cases i with
  | wrfreq | wrvol | wract | wrmute | rdfreq | rdvol | rdact | rdmute | rdcnt | rdamp =>
    cases hi
    exact whenStarted_of_started hs (.refused .noSuchChannel)
  | _ => cases hi

theorem transact_of_decode_error {w : Txn} {e : DecodeError} {s : State} (hs : s.started = true)
    (h : decode w = .error e) : transact w s = .refused (refusalOf e) := by
  simp [transact, h, hs]

end Sys2Proof.Machine

/-! ### The statements settled -/

namespace Sys2Proof.Proofs

open Sys2Proof.Machine Sys2Proof.Safety

/-- Settles O28: the read shows the written bank, whose register is the saturated operand. -/
theorem writtenValuesReadBackSaturated : Obligations.WrittenValuesReadBackSaturated := by
  intro j d s hs
  obtain ⟨t, hwvol, hrvol⟩ := readChannel_after_writeChannel hs j (setVol (volOf d)) fun c => zext32 c.vol
  obtain ⟨u, hwfreq, hrfreq⟩ := readChannel_after_writeChannel hs j (setFreq (freqOf d)) fun c => zext32 c.freq
  exact ⟨⟨t, hwvol, _, (zext32_toInt (by decide) _).trans (volOf_toNat d), hrvol⟩,
    ⟨u, hwfreq, _, (zext32_toInt (by decide) _).trans (freqOf_toNat d), hrfreq⟩⟩

/-- Settles O29: a read answers the state it found with a response more, and its value depends on the block and the mark
`started`, which the reads between leave. -/
theorem readsChangeNothingAndRepeat : Obligations.ReadsChangeNothingAndRepeat := by
  refine ⟨fun i s t hi h => ?_, fun i between s t v hreads hi hv h => ?_⟩
  · obtain ⟨v, rfl⟩ := exec_next_of_isRead hi h
    exact ⟨rfl, rfl, rfl, rfl, rfl⟩
  · obtain ⟨hblock, hstarted⟩ := execAll_reads_keep hreads h
    exact responds_congr hi hblock hstarted hv

/-- Settles O17: a bank write of the saturated operand. -/
theorem writeFrequencySaturates : Obligations.WriteFrequencySaturates := by
  intro j d s hs
  obtain ⟨hdecode, -⟩ := opcodeMapIsDecodedRowByRow.1 j d
  obtain ⟨t, ht, hbank, hframe⟩ := exists_writeChannel_next hs j (setFreq (freqOf d))
  exact ⟨hdecode, exec_of_channelField_three hs rfl, t, ht, by simp [hbank, freqOf_toNat], by rw [hbank]; rfl, hframe⟩

/-- Settles O18: a bank write of the saturated operand, and 99 saturated is 15. -/
theorem writeVolumeSaturates : Obligations.WriteVolumeSaturates := by
  intro j d s hs
  obtain ⟨-, hdecode, -⟩ := opcodeMapIsDecodedRowByRow.1 j d
  obtain ⟨t, ht, hbank, hframe⟩ := exists_writeChannel_next hs j (setVol (volOf d))
  exact ⟨hdecode, exec_of_channelField_three hs rfl,
    ⟨t, ht, by simp [hbank, volOf_toNat], by rw [hbank]; rfl, hframe⟩,
    readChannel_after_writeChannel hs .ch0 (setVol (volOf 99)) fun c => zext32 c.vol⟩

/-- Settles O19: a bank write of the nonzero test. -/
theorem writeActiveStoresTheNonzeroTest : Obligations.WriteActiveStoresTheNonzeroTest := by
  intro j d s hs
  obtain ⟨-, -, hdecode, -⟩ := opcodeMapIsDecodedRowByRow.1 j d
  obtain ⟨t, ht, hbank, hframe⟩ := exists_writeChannel_next hs j (setActive (flagOf d))
  exact ⟨hdecode, exec_of_channelField_three hs rfl, t, ht, by simp [hbank, flagOf_iff], by rw [hbank]; rfl, hframe⟩

/-- Settles O20: a bank write of the nonzero test. -/
theorem writeMutedStoresTheNonzeroTest : Obligations.WriteMutedStoresTheNonzeroTest := by
  intro j d s hs
  obtain ⟨-, -, -, hdecode, -⟩ := opcodeMapIsDecodedRowByRow.1 j d
  obtain ⟨t, ht, hbank, hframe⟩ := exists_writeChannel_next hs j (setMuted (flagOf d))
  exact ⟨hdecode, exec_of_channelField_three hs rfl, t, ht, by simp [hbank, flagOf_iff], by rw [hbank]; rfl, hframe⟩

/-- Settles O21: a global write of the nonzero test to `pulse`. -/
theorem writePulseSetsThePulseBitAlone : Obligations.WritePulseSetsThePulseBitAlone := by
  intro d s hs
  exact ⟨decode_eq_ok_iff.mpr ⟨rfl, rfl⟩, _, writeGlobal_started hs (setPulse (flagOf d)),
    flagOf_iff d, rfl, rfl, rfl, ⟨rfl, rfl, rfl⟩, onlyBlockMay_mapBlock _ s⟩

/-- Settles O22: a global write of the nonzero test to `ring`. -/
theorem writeRingSetsTheRingBitAlone : Obligations.WriteRingSetsTheRingBitAlone := by
  intro d s hs
  exact ⟨decode_eq_ok_iff.mpr ⟨rfl, rfl⟩, _, writeGlobal_started hs (setRing (flagOf d)),
    flagOf_iff d, rfl, rfl, rfl, ⟨rfl, rfl, rfl⟩, onlyBlockMay_mapBlock _ s⟩

/-- Settles O25: each word is a bank read of its register; the examples are reads after a write and after RESET. -/
theorem channelReadsRespondWithTheRegister : Obligations.ChannelReadsRespondWithTheRegister := by
  intro j s hs
  obtain ⟨-, -, -, -, -, -, -, hfreq, hvol, hact, hmute, -⟩ := opcodeMapIsDecodedRowByRow.1 j 0
  have hthree : ∀ i : Instr, i.channelField = some 3 → exec i s = .refused .noSuchChannel :=
    fun _ => exec_of_channelField_three hs
  have hwritten := readChannel_after_writeChannel hs
  have hreset := readChannel_after_reset (s := s) rfl j
  have hread := readChannel_numberOf hs j
  have hwide : (zext32 (getChan j s.block).freq).toNat = (getChan j s.block).freq.toNat := zext32_toNat (by decide) _
  have hbyte : (getChan j s.block).freq.toNat ≤ 255 := Nat.le_of_lt_succ (BitVec.isLt _)
  exact ⟨hfreq, hvol, hact, hmute, hthree _ rfl, hthree _ rfl, hthree _ rfl, hthree _ rfl,
    ⟨_, hwide, hwide ▸ hbyte, hread fun c => zext32 c.freq⟩,
    ⟨_, zext32_toNat (by decide) _, hread fun c => zext32 c.vol⟩,
    ⟨_, flagWord_toNat _, hread fun c => flagWord c.active⟩,
    ⟨_, flagWord_toNat _, hread fun c => flagWord c.muted⟩,
    hwritten .ch0 (setFreq (freqOf 300)) fun c => zext32 c.freq,
    hwritten .ch2 (setVol (volOf (-1))) fun c => zext32 c.vol,
    hwritten .ch1 (setMuted (flagOf 5)) fun c => flagWord c.muted,
    ⟨_, rfl, hreset fun c => zext32 c.vol, hreset fun c => flagWord c.active⟩⟩

/-- Settles O26: each word is a global read of its register; a word that decodes to nothing is refused. -/
theorem globalReadsRespondWithTheRegister : Obligations.GlobalReadsRespondWithTheRegister := by
  intro s hs
  have hread := readGlobal_started hs
  have hwidth : (BitVec.ofNat 32 (widthBits s.block.nwidth)).toNat = widthBits s.block.nwidth := by
    cases s.block.nwidth <;> rfl
  have hlfsr : (zext32 s.block.lfsr).toNat = s.block.lfsr.toNat := zext32_toNat (by decide) _
  have hmode : execWrnmode 4 s = writeGlobal (setMode .w4) s := execWrnmode_of_widthOf (by decide) s
  obtain ⟨t, hwmode, hrmode⟩ :=
    readGlobal_after_writeGlobal hs (setMode .w4) fun k => BitVec.ofNat 32 (widthBits k.nwidth)
  exact ⟨by decide, by decide, by decide, by decide, by decide,
    ⟨_, flagWord_toNat _, hread fun k => flagWord k.pulse⟩, ⟨_, flagWord_toNat _, hread fun k => flagWord k.ring⟩,
    ⟨_, hwidth, hread fun k => BitVec.ofNat 32 (widthBits k.nwidth)⟩,
    ⟨_, hlfsr, fun h => hlfsr ▸ lfsrOk_of_inv h, hread fun k => zext32 k.lfsr⟩,
    fun w hk hd => transact_of_decode_error hs (decode_of_kind_read hk hd),
    fun d => transact_of_decode_error hs (decode_write_lfsr d), hread fun _ => 15,
    ⟨_, rfl, rfl, rfl, rfl⟩,
    readGlobal_after_writeGlobal hs (setRing (flagOf 2)) fun k => flagWord k.ring,
    ⟨t, hmode.trans hwmode, hrmode⟩⟩

/-- Settles O27: each word is a bank read of its register, which does not ask whether the channel sounds. -/
theorem diagnosticReadsShowTheHiddenState : Obligations.DiagnosticReadsShowTheHiddenState := by
  intro j s hs
  obtain ⟨-, -, -, -, -, -, -, -, -, -, -, -, -, -, -, -, hcnt, hamp, -⟩ := opcodeMapIsDecodedRowByRow.1 j 0
  have hvalue : (zext32 (getChan j s.block).cnt).toNat = (getChan j s.block).cnt.toNat :=
    zext32_toNat (by decide) _
  exact ⟨hcnt, hamp, exec_of_channelField_three hs rfl, exec_of_channelField_three hs rfl,
    ⟨_, hvalue, fun h => hvalue ▸ cnt_le_of_inv h j, readChannel_numberOf hs j fun c => zext32 c.cnt⟩,
    ⟨_, rfl, readChannel_numberOf hs j Channel.amp, fun h => BitVec.eq_of_toInt_eq h⟩,
    ⟨_, rfl, readChannel_after_reset rfl j fun c => zext32 c.cnt⟩⟩

end Sys2Proof.Proofs

/-! SUPPORT and proofs. Phase counters and oscillators, 42_oscillator.md: the part of the block one channel's gate
reads, each waveform's update in numbers, runs of SAMPLEs, and the statements these settle. -/

namespace Sys2Proof.Machine

open Function Sys2Proof.Safety

/-! ### The part of the block one channel's gate reads (R160 to R162) -/

/-- The two blocks agree on all that the gate of channel `j` reads: its bank, `pulse`, `nwidth`, and for the noise
channel the shift register. -/
structure ChanAgrees (j : Chan) (k l : Block) : Prop where
  bank : getChan j k = getChan j l
  pulse : k.pulse = l.pulse
  nwidth : k.nwidth = l.nwidth
  lfsr : j = .ch2 → k.lfsr = l.lfsr

namespace ChanAgrees

variable {j : Chan} {k l m : Block}

theorem refl (j : Chan) (k : Block) : ChanAgrees j k k := ⟨rfl, rfl, rfl, fun _ => rfl⟩

theorem symm (h : ChanAgrees j k l) : ChanAgrees j l k :=
  ⟨h.bank.symm, h.pulse.symm, h.nwidth.symm, fun hj => (h.lfsr hj).symm⟩

theorem trans (h : ChanAgrees j k l) (h' : ChanAgrees j l m) : ChanAgrees j k m :=
  ⟨h.bank.trans h'.bank, h.pulse.trans h'.pulse, h.nwidth.trans h'.nwidth, fun hj => (h.lfsr hj).trans (h'.lfsr hj)⟩

/-- What a channel's gate leaves of its own part depends on that part alone. -/
theorem gate_congr (S : Int) (h : ChanAgrees j k l) : ChanAgrees j (gate S j k) (gate S j l) where
  bank := by
    cases j with
    | ch0 => rw [gate_ch0, gate_ch0, getChan_mapChan_same, getChan_mapChan_same, h.bank, h.pulse]
    | ch1 => rw [gate_ch1, gate_ch1, getChan_mapChan_same, getChan_mapChan_same, h.bank]
    | ch2 => exact (gate_ch2_congr h.bank h.nwidth (h.lfsr rfl)).1
  pulse := by rw [gate_pulse, gate_pulse, h.pulse]
  nwidth := by rw [gate_nwidth, gate_nwidth, h.nwidth]
  lfsr := by
    rintro rfl
    exact (gate_ch2_congr h.bank h.nwidth (h.lfsr rfl)).2

/-- What a channel's gate gives out depends on its own part alone. -/
theorem gateOut_eq (S : Int) (h : ChanAgrees j k l) : gateOut S j k = gateOut S j l :=
  gateOut_congr h.bank (h.gate_congr S).bank

/-- A write to a bank leaves agreeing blocks agreeing. -/
theorem mapChan_congr (i : Chan) (f : Channel → Channel) (h : ChanAgrees j k l) :
    ChanAgrees j (mapChan i f k) (mapChan i f l) where
  bank := by rw [getChan_mapChan, getChan_mapChan, h.bank]
  pulse := by rw [mapChan_pulse, mapChan_pulse, h.pulse]
  nwidth := by rw [mapChan_nwidth, mapChan_nwidth, h.nwidth]
  lfsr hj := by rw [mapChan_lfsr, mapChan_lfsr, h.lfsr hj]

end ChanAgrees

/-- The gate of another channel leaves all that a channel's gate reads. -/
theorem chanAgrees_gate_of_ne (S : Int) {i j : Chan} (hij : j ≠ i) (k : Block) : ChanAgrees j k (gate S i k) where
  bank := by
    cases i with
    | ch0 => rw [gate_ch0, getChan_mapChan_ne hij]
    | ch1 => rw [gate_ch1, getChan_mapChan_ne hij]
    | ch2 =>
      rw [gate_ch2]
      cases j with
      | ch0 | ch1 => rfl
      | ch2 => exact absurd rfl hij
  pulse := (gate_pulse S i k).symm
  nwidth := (gate_nwidth S i k).symm
  lfsr hj := by
    cases i with
    | ch0 => rw [gate_ch0, mapChan_lfsr]
    | ch1 => rw [gate_ch1, mapChan_lfsr]
    | ch2 => exact absurd hj hij

/-- Blocks that agree for every channel and in `ring` are the same. -/
theorem eq_of_chanAgrees {k l : Block} (hring : k.ring = l.ring) (h : ∀ j, ChanAgrees j k l) : k = l := by
  obtain ⟨h0, hpulse, hnwidth, -⟩ := h .ch0
  obtain ⟨h1, -, -, -⟩ := h .ch1
  obtain ⟨h2, -, -, hlfsr⟩ := h .ch2
  cases k
  cases l
  simp_all

/-- A channel's part after its own gate and another's is the same in either order. -/
theorem chanAgrees_gate_swap (S : Int) {i j : Chan} (hij : i ≠ j) (k : Block) :
    ChanAgrees i (gate S i (gate S j k)) (gate S j (gate S i k)) :=
  ((chanAgrees_gate_of_ne S hij k).symm.gate_congr S).trans (chanAgrees_gate_of_ne S hij (gate S i k))

/-- Two gates of other channels leave all that a channel's gate reads. -/
theorem chanAgrees_gate_gate_of_ne (S : Int) {i j m : Chan} (hi : m ≠ i) (hj : m ≠ j) (k : Block) :
    ChanAgrees m k (gate S i (gate S j k)) :=
  (chanAgrees_gate_of_ne S hj k).trans (chanAgrees_gate_of_ne S hi (gate S j k))

/-- Gates of different channels commute: each channel sees its own gate alone, in either order. -/
theorem gate_comm (S : Int) {i j : Chan} (hij : i ≠ j) (k : Block) :
    gate S i (gate S j k) = gate S j (gate S i k) := by
  refine eq_of_chanAgrees (by simp) fun m => ?_
  by_cases hi : m = i
  · subst hi
    exact chanAgrees_gate_swap S hij k
  by_cases hj : m = j
  · subst hj
    exact (chanAgrees_gate_swap S hij.symm k).symm
  exact (chanAgrees_gate_gate_of_ne S hi hj k).symm.trans (chanAgrees_gate_gate_of_ne S hj hi k)

/-! ### What SAMPLE leaves of one channel's part -/

/-- SAMPLE leaves of a channel's part what the channel's own gate leaves of it. -/
theorem chanAgrees_sampleBlock (S : Int) (j : Chan) (k : Block) : ChanAgrees j (sampleBlock S k) (gate S j k) where
  bank := getChan_sampleBlock S j k
  pulse := by simp
  nwidth := by simp
  lfsr := by
    rintro rfl
    exact sampleBlock_lfsr S k

theorem ChanAgrees.sampleBlock_congr {j : Chan} {k l : Block} (S : Int) (h : ChanAgrees j k l) :
    ChanAgrees j (sampleBlock S k) (sampleBlock S l) :=
  (chanAgrees_sampleBlock S j k).trans ((h.gate_congr S).trans (chanAgrees_sampleBlock S j l).symm)

/-- Any number of SAMPLEs leaves of a channel's part what the channel's own gate leaves of it. -/
theorem chanAgrees_iterate_sampleBlock (S : Int) (j : Chan) (k : Block) (n : Nat) :
    ChanAgrees j ((sampleBlock S)^[n] k) ((gate S j)^[n] k) := by
  induction n with
  | zero => exact .refl j k
  | succ n ih =>
    rw [iterate_succ_apply', iterate_succ_apply']
    exact (chanAgrees_sampleBlock S j _).trans (ih.gate_congr S)

/-- Any number of SAMPLEs leaves a channel's part while the channel does not sound (R169). -/
theorem chanAgrees_iterate_sampleBlock_of_silent (S : Int) {j : Chan} {k : Block} (hr : runs (getChan j k) = false)
    (n : Nat) : ChanAgrees j ((sampleBlock S)^[n] k) k := by
  have h := chanAgrees_iterate_sampleBlock S j k n
  rwa [iterate_fixed (gate_of_silent hr)] at h

theorem runs_eq_false_iff (c : Channel) : runs c = false ↔ c.active = false ∨ c.muted = true := by
  cases hactive : c.active <;> simp [runs, hactive]

theorem runs_gate (S : Int) (j : Chan) (k : Block) : runs (getChan j (gate S j k)) = runs (getChan j k) := by
  rw [← getChan_sampleBlock, runs, sampleBlock_active, sampleBlock_muted, runs]

/-! ### The updates in numbers (R163 to R165) -/

/-- The counters of a machine that meets the invariant can count once more within their width. -/
theorem cnt_lt_of_inv {s : State} (h : Inv s) (j : Chan) : (getChan j s.block).cnt.toNat < 65535 :=
  (cnt_le_of_inv h j).trans_lt (by decide)

section
variable {S : Int} {c : Channel}

theorem squareUpdate_of_passed (hcnt : c.cnt.toNat < 65535) (h : c.freq.toNat < c.cnt.toNat + 1) :
    squareUpdate S c = { c with cnt := 0, amp := if c.amp = 0 then level S c.vol else 0 } :=
  if_pos ((bump_toNat hcnt).symm ▸ h)

theorem squareUpdate_of_le (h : c.cnt.toNat + 1 ≤ c.freq.toNat) : squareUpdate S c = bump c := by
  have hfreq := c.freq.isLt
  exact if_neg (by rw [bump_toNat (by omega)]; omega)

theorem squareUpdate_cnt_le (S : Int) (c : Channel) : (squareUpdate S c).cnt.toNat ≤ c.freq.toNat := by
  unfold squareUpdate
  split
  · exact Nat.zero_le _
  · next h => exact Nat.le_of_not_lt h

/-- The counter of `SquareUpdate`: restarted past the frequency, else one more (R163). -/
theorem squareUpdate_cnt (S : Int) (hcnt : c.cnt.toNat < 65535) :
    (squareUpdate S c).cnt.toNat = if c.freq.toNat < c.cnt.toNat + 1 then 0 else c.cnt.toNat + 1 := by
  split
  · next h => rw [squareUpdate_of_passed hcnt h]; rfl
  · next h => rw [squareUpdate_of_le (Nat.le_of_not_lt h), bump_toNat hcnt]

/-- The toggle of R163, on the value `amp` holds. -/
theorem squareUpdate_spec (hlow : -(2 ^ 26) ≤ S) (hhigh : S ≤ 2 ^ 26) (hcnt : c.cnt.toNat < 65535) :
    (c.freq.toNat < c.cnt.toNat + 1 → (squareUpdate S c).cnt = 0 ∧
      (squareUpdate S c).amp.toInt = if c.amp.toInt = 0 then c.vol.toNat * S else 0) ∧
    (c.cnt.toNat + 1 ≤ c.freq.toNat →
      (squareUpdate S c).cnt.toNat = c.cnt.toNat + 1 ∧ (squareUpdate S c).amp = c.amp) := by
  refine ⟨fun h => ?_, fun h => ?_⟩
  · have hzero : c.amp.toInt = 0 ↔ c.amp = 0 := by rw [← BitVec.toInt_inj]; rfl
    rw [squareUpdate_of_passed hcnt h]
    simp [hzero, apply_ite BitVec.toInt, level_toInt hlow hhigh]
  · rw [squareUpdate_of_le h]
    exact ⟨bump_toNat hcnt, rfl⟩

/-- The counter of `PulseUpdate`: restarted at the cycle length, else one more (R164). -/
theorem pulseCount_toNat (hcnt : c.cnt.toNat < 65535) :
    (pulseCount c).toNat = if 4 * (c.freq.toNat + 2) ≤ c.cnt.toNat + 1 then 0 else c.cnt.toNat + 1 := by
  simp only [pulseCount, pulseLength, bump_toNat hcnt, ge_iff_le, apply_ite BitVec.toNat]
  rfl

theorem pulseUpdate_amp_toInt (hlow : -(2 ^ 26) ≤ S) (hhigh : S ≤ 2 ^ 26) :
    (pulseUpdate S c).amp.toInt =
      if (pulseUpdate S c).cnt.toNat ≤ c.freq.toNat then c.vol.toNat * S else 0 := by
  rw [pulseUpdate_amp, pulseUpdate_cnt]
  split
  · exact level_toInt hlow hhigh c.vol
  · rfl

theorem noiseWraps_iff (hcnt : c.cnt.toNat < 65535) : noiseWraps c = true ↔ c.freq.toNat < c.cnt.toNat + 1 := by
  simp only [noiseWraps, bump_toNat hcnt, gt_iff_lt, decide_eq_true_eq]

theorem noiseUpdate_of_passed {k : Block} (hcnt : k.ch2.cnt.toNat < 65535)
    (h : k.ch2.freq.toNat < k.ch2.cnt.toNat + 1) :
    noiseUpdate S k = { k with
      lfsr := lfsrStep k.nwidth k.lfsr
      ch2 := { k.ch2 with cnt := 0, amp := noiseLevel S (lfsrBit k.nwidth k.lfsr) k.ch2.vol } } :=
  if_pos ((noiseWraps_iff hcnt).mpr h)

theorem noiseUpdate_of_le {k : Block} (h : k.ch2.cnt.toNat + 1 ≤ k.ch2.freq.toNat) :
    noiseUpdate S k = { k with ch2 := bump k.ch2 } := by
  have hfreq := k.ch2.freq.isLt
  exact if_neg (by rw [noiseWraps_iff (by omega)]; omega)

/-- The counter of `NoiseUpdate`: restarted past the frequency, else one more (R165). -/
theorem noiseUpdate_cnt (S : Int) {k : Block} (hcnt : k.ch2.cnt.toNat < 65535) :
    (noiseUpdate S k).ch2.cnt.toNat =
      if k.ch2.freq.toNat < k.ch2.cnt.toNat + 1 then 0 else k.ch2.cnt.toNat + 1 := by
  split
  · next h => rw [noiseUpdate_of_passed hcnt h]; rfl
  · next h => rw [noiseUpdate_of_le (Nat.le_of_not_lt h)]; exact bump_toNat hcnt

/-- R102, R165: with a legal scale the level a bit of the register gates is its parity times `v * S`. -/
theorem noiseLevel_bit_toInt (hlow : -(2 ^ 26) ≤ S) (hhigh : S ≤ 2 ^ 26) (l : BitVec 10) (v : BitVec 4) :
    (noiseLevel S (l.getLsbD 0) v).toInt = (l.toNat % 2 : Nat) * v.toNat * S := by
  rw [noiseLevel_toInt hlow hhigh, BitVec.getLsbD, Nat.toNat_testBit, pow_zero, Nat.div_one]

end

/-! ### One SAMPLE of a channel that sounds (R161) -/

/-- The channel runs the square update: channel 1, and channel 0 while `pulse` is 0 (R161). -/
abbrev SquareRole (j : Chan) (k : Block) : Prop := j = .ch1 ∨ (j = .ch0 ∧ k.pulse = false)

/-- A channel's role: pulse, square or noise (R161). -/
theorem role_cases (j : Chan) (k : Block) : (j = .ch0 ∧ k.pulse = true) ∨ SquareRole j k ∨ j = .ch2 := by
  cases j with
  | ch0 =>
    cases hp : k.pulse with
    | false => exact .inr (.inl (.inr ⟨rfl, hp⟩))
    | true => exact .inl ⟨rfl, rfl⟩
  | ch1 => exact .inr (.inl (.inl rfl))
  | ch2 => exact .inr (.inr rfl)

theorem getChan_gate_of_square (S : Int) {j : Chan} {k : Block} (hrole : SquareRole j k)
    (hr : runs (getChan j k) = true) : getChan j (gate S j k) = squareUpdate S (getChan j k) := by
  rw [gate_of_runs hr]
  rcases hrole with rfl | ⟨rfl, hp⟩
  · rfl
  · simp [updateChan, hp]

theorem getChan_sampleBlock_of_square (S : Int) {j : Chan} {k : Block} (hrole : SquareRole j k)
    (hr : runs (getChan j k) = true) : getChan j (sampleBlock S k) = squareUpdate S (getChan j k) :=
  (getChan_sampleBlock S j k).trans (getChan_gate_of_square S hrole hr)

theorem getChan_sampleBlock_of_pulse (S : Int) {k : Block} (hp : k.pulse = true) (hr : runs (getChan .ch0 k) = true) :
    getChan .ch0 (sampleBlock S k) = pulseUpdate S (getChan .ch0 k) := by
  rw [getChan_sampleBlock, gate_of_runs hr]
  simp [updateChan, hp]

theorem chanAgrees_sampleBlock_noise (S : Int) {k : Block} (hr : runs (getChan .ch2 k) = true) :
    ChanAgrees .ch2 (sampleBlock S k) (noiseUpdate S k) := by
  have h := chanAgrees_sampleBlock S .ch2 k
  rwa [gate_of_runs hr] at h

/-- The counter of a channel that sounds after a SAMPLE, by its role. -/
theorem sampleBlock_cnt (S : Int) {j : Chan} {k : Block} (hr : runs (getChan j k) = true)
    (hcnt : (getChan j k).cnt.toNat < 65535) :
    (getChan j (sampleBlock S k)).cnt.toNat =
      if j = .ch0 ∧ k.pulse = true then
        if 4 * ((getChan j k).freq.toNat + 2) ≤ (getChan j k).cnt.toNat + 1 then 0 else (getChan j k).cnt.toNat + 1
      else if (getChan j k).freq.toNat < (getChan j k).cnt.toNat + 1 then 0 else (getChan j k).cnt.toNat + 1 := by
  rcases role_cases j k with ⟨rfl, hp⟩ | hsquare | rfl
  · rw [if_pos ⟨rfl, hp⟩, getChan_sampleBlock_of_pulse S hp hr]
    exact pulseCount_toNat hcnt
  · have hpulse : ¬(j = .ch0 ∧ k.pulse = true) := by
      rintro ⟨rfl, hp⟩
      simp [SquareRole, hp] at hsquare
    rw [if_neg hpulse, getChan_sampleBlock_of_square S hsquare hr, squareUpdate_cnt S hcnt]
  · rw [if_neg (fun h => nomatch h.1), (chanAgrees_sampleBlock_noise S hr).bank]
    exact noiseUpdate_cnt S hcnt

/-! ### Transactions on states that agree for a channel (R169) -/

theorem exists_exec_sample_next {s : State} (hs : s.started = true) :
    ∃ t, exec .sample s = .next t ∧ t.block = sampleBlock s.cfg.outputScale s.block ∧ t.started = true ∧
      t.cfg = s.cfg :=
  ⟨_, whenStarted_of_started hs _, rfl, hs, rfl⟩

theorem execAll_cons_of_next {i : Instr} {s u : State} (h : exec i s = .next u) (is : List Instr) :
    execAll (i :: is) s = execAll is u := by
  simp [execAll, h]

/-- `n` SAMPLEs of a started machine are performed, each on the block the one before left. -/
theorem exists_execAll_samples {s : State} (hs : s.started = true) (n : Nat) :
    ∃ t, execAll (List.replicate n .sample) s = .next t ∧ t.block = (sampleBlock s.cfg.outputScale)^[n] s.block ∧
      t.started = true ∧ t.cfg = s.cfg := by
  induction n generalizing s with
  | zero => exact ⟨s, rfl, rfl, hs, rfl⟩
  | succ n ih =>
    obtain ⟨u, hu, hblock, hstarted, hcfg⟩ := exists_exec_sample_next hs
    obtain ⟨t, ht, htblock, htstarted, htcfg⟩ := ih hstarted
    refine ⟨t, (execAll_cons_of_next hu _).trans ht, ?_, htstarted, htcfg.trans hcfg⟩
    rw [htblock, hblock, hcfg, iterate_succ_apply]

/-- The two machines are both started or both not, run with the same parameters, and agree for channel `j`. -/
structure StateAgrees (j : Chan) (s t : State) : Prop where
  started : s.started = t.started
  cfg : s.cfg = t.cfg
  block : ChanAgrees j s.block t.block

/-- A transaction performed on one of two agreeing machines is performed on the other, and they still agree. -/
theorem StateAgrees.exec_next {j : Chan} {i : Instr} {s t s' : State} (h : StateAgrees j s t)
    (he : exec i s = .next s') : ∃ t', exec i t = .next t' ∧ StateAgrees j s' t' := by
  cases i with
  | wrfreq | wrvol | wract | wrmute =>
    obtain ⟨hs, i, rfl, rfl⟩ := writeChannel_next he
    exact ⟨_, writeChannel_numberOf (h.started ▸ hs) i _, h.started, h.cfg, h.block.mapChan_congr i _⟩
  | wrpulse d =>
    obtain ⟨hs, rfl⟩ := writeGlobal_next he
    exact ⟨_, writeGlobal_started (h.started ▸ hs) _, h.started, h.cfg, by simpa using h.block.bank, rfl,
      h.block.nwidth, h.block.lfsr⟩
  | wrring d =>
    obtain ⟨hs, rfl⟩ := writeGlobal_next he
    exact ⟨_, writeGlobal_started (h.started ▸ hs) _, h.started, h.cfg, by simpa using h.block.bank, h.block.pulse,
      h.block.nwidth, h.block.lfsr⟩
  | wrnmode d =>
    obtain ⟨hs, w, hw, rfl⟩ := execWrnmode_next he
    exact ⟨_, (execWrnmode_of_widthOf hw t).trans (writeGlobal_started (h.started ▸ hs) _), h.started, h.cfg,
      by simpa using h.block.bank, h.block.pulse, rfl, fun _ => rfl⟩
  | rdfreq | rdvol | rdact | rdmute | rdcnt | rdamp =>
    simp only [exec, execRdfreq, execRdvol, execRdact, execRdmute, execRdcnt, execRdamp] at he ⊢
    obtain ⟨hs, i, rfl, rfl⟩ := readChannel_next he
    exact ⟨_, readChannel_numberOf (h.started ▸ hs) i _, h.started, h.cfg, h.block⟩
  | rdpulse | rdring | rdnmode | rdlfsr | rdvolmax =>
    simp only [exec, execRdpulse, execRdring, execRdnmode, execRdlfsr, execRdvolmax] at he ⊢
    obtain ⟨hs, rfl⟩ := readGlobal_next he
    exact ⟨_, readGlobal_started (h.started ▸ hs) _, h.started, h.cfg, h.block⟩
  | sample =>
    obtain ⟨hs, hblock, hstarted, -, hcfg, -⟩ := execSample_next he
    obtain ⟨t', ht, htblock, htstarted, htcfg⟩ := exists_exec_sample_next (h.started ▸ hs)
    refine ⟨t', ht, hstarted.trans (hs.trans htstarted.symm), hcfg.trans (h.cfg.trans htcfg.symm), ?_⟩
    rw [hblock, htblock, h.cfg]
    exact h.block.sampleBlock_congr _
  | reset =>
    cases he
    refine ⟨_, rfl, rfl, h.cfg, ?_⟩
    rw [h.cfg]
    exact .refl j _

theorem StateAgrees.execAll_next {j : Chan} {is : List Instr} {s t s' : State} (h : StateAgrees j s t)
    (he : execAll is s = .next s') : ∃ t', execAll is t = .next t' ∧ StateAgrees j s' t' := by
  induction is generalizing s t with
  | nil =>
    cases he
    exact ⟨t, rfl, h⟩
  | cons i is ih =>
    obtain ⟨u, hu, hrest⟩ := execAll_cons_next he
    obtain ⟨v, hv, huv⟩ := h.exec_next hu
    obtain ⟨t', ht', hagree⟩ := ih huv hrest
    exact ⟨t', (execAll_cons_of_next hv is).trans ht', hagree⟩

/-! ### Cycles of a counter -/

/-- A counter that restarts at `p` counts modulo `p`. -/
theorem restart_eq_mod {p x : Nat} (hx : x < p) : (if p ≤ x + 1 then 0 else x + 1) = (x + 1) % p := by
  split
  · rw [show x + 1 = p by omega, Nat.mod_self]
  · rw [Nat.mod_eq_of_lt (by omega)]

/-- When the remainder by `p` passes its last value, the quotient goes up by one. -/
theorem succ_div_mod_of_passed {p n : Nat} (h : p ≤ n % p + 1) (hp : 0 < p) :
    (n + 1) / p = n / p + 1 ∧ (n + 1) % p = 0 := by
  have hlt := Nat.mod_lt n hp
  have hn := Nat.mod_add_div n p
  rw [Nat.div_mod_unique hp, mul_add]
  omega

theorem succ_div_mod_of_lt {p n : Nat} (h : n % p + 1 < p) :
    (n + 1) / p = n / p ∧ (n + 1) % p = n % p + 1 := by
  have hn := Nat.mod_add_div n p
  rw [Nat.div_mod_unique (by omega)]
  omega

/-- A property of period `p` holds equally often in every `p` consecutive numbers. -/
theorem count_shift_of_periodic {P : Nat → Prop} [DecidablePred P] {p : Nat} (hP : Periodic P p) (m : Nat) :
    Nat.count (fun n => P (m + n)) p = Nat.count P p := by
  have hfirst := Nat.count_add P m p
  have hlast := Nat.count_add P p m
  have hshift : (fun n => P (p + n)) = P := funext fun n => by rw [add_comm]; exact hP n
  simp only [hshift] at hlast
  rw [add_comm m p] at hfirst
  omega

/-! ### The square wave (R166) -/

/-- A square wave from its low level: 0 for `p` samples, `a` for `p` samples, and so on. -/
def squareWave (p : Nat) (a : Int) (n : Nat) : Int := if n / p % 2 = 1 then a else 0

section
variable {p : Nat} {a : Int}

theorem squareWave_of_lt {n : Nat} (h : n < p) : squareWave p a n = 0 := by
  simp [squareWave, Nat.div_eq_of_lt h]

theorem squareWave_eq_zero_or (p : Nat) (a : Int) (n : Nat) : squareWave p a n = 0 ∨ squareWave p a n = a := by
  unfold squareWave
  split
  · exact .inr rfl
  · exact .inl rfl

/-- Half a cycle later the level is the other one. -/
theorem squareWave_add_half (hp : 0 < p) (n : Nat) : squareWave p a (n + p) = a - squareWave p a n := by
  simp only [squareWave, Nat.add_div_right n hp, Nat.succ_mod_two_eq_one_iff]
  rcases Nat.mod_two_eq_zero_or_one (n / p) with h | h <;> simp [h]

/-- Every full cycle is high for half of it. -/
theorem count_squareWave_ne_zero (hp : 0 < p) (ha : a ≠ 0) (m : Nat) :
    Nat.count (fun n => squareWave p a (m + n) ≠ 0) (2 * p) = p := by
  have hperiodic : Periodic (fun n => squareWave p a n ≠ 0) (2 * p) := fun n => by
    simp only [two_mul, ← add_assoc, squareWave_add_half hp, sub_sub_cancel]
  have hlow : Nat.count (fun n => squareWave p a n ≠ 0) p = 0 :=
    Nat.count_iff_forall_not.mpr fun n hn => not_not.mpr (squareWave_of_lt hn)
  have hhigh : Nat.count (fun n => squareWave p a (p + n) ≠ 0) p = p :=
    Nat.count_iff_forall.mpr fun n hn => by rwa [add_comm, squareWave_add_half hp, squareWave_of_lt hn, sub_zero]
  rw [count_shift_of_periodic hperiodic, two_mul, Nat.count_add, hlow, hhigh, zero_add]

end

/-- The bank a square channel has after `n` updates from counter 0 and amplitude 0. -/
def squareAfter (S : Int) (c : Channel) (n : Nat) : Channel :=
  { c with
    cnt := BitVec.ofNat 16 (n % (c.freq.toNat + 1))
    amp := if n / (c.freq.toNat + 1) % 2 = 1 then level S c.vol else 0 }

theorem restartCount_toNat (f : BitVec 8) (n : Nat) :
    (BitVec.ofNat 16 (n % (f.toNat + 1))).toNat = n % (f.toNat + 1) := by
  have hf := f.isLt
  have hlt : n % (f.toNat + 1) < f.toNat + 1 := Nat.mod_lt n (Nat.succ_pos _)
  rw [BitVec.toNat_ofNat]
  omega

theorem iterate_squareUpdate (S : Int) {c : Channel} (hcnt : c.cnt = 0) (hamp : c.amp = 0) (n : Nat) :
    (squareUpdate S)^[n] c = squareAfter S c n := by
  induction n with
  | zero =>
    cases c
    simp_all [squareAfter]
  | succ n ih =>
    have hcount : (squareAfter S c n).cnt.toNat = n % (c.freq.toNat + 1) := restartCount_toNat c.freq n
    have hlt : n % (c.freq.toNat + 1) < c.freq.toNat + 1 := Nat.mod_lt n (Nat.succ_pos _)
    have hfreq := c.freq.isLt
    rw [iterate_succ_apply', ih]
    by_cases hpassed : c.freq.toNat + 1 ≤ n % (c.freq.toNat + 1) + 1
    · obtain ⟨hdiv, hmod⟩ := succ_div_mod_of_passed hpassed (Nat.succ_pos _)
      rw [squareUpdate_of_passed (by omega) (by rw [hcount]; exact hpassed)]
      rcases Nat.mod_two_eq_zero_or_one (n / (c.freq.toNat + 1)) with h | h <;>
        simp [squareAfter, hdiv, hmod, h, Nat.succ_mod_two_eq_one_iff]
    · obtain ⟨hdiv, hmod⟩ := succ_div_mod_of_lt (Nat.lt_of_not_le hpassed)
      rw [squareUpdate_of_le (by rw [hcount]; exact Nat.le_of_not_lt hpassed), bump, hcount]
      simp [squareAfter, hdiv, hmod]

theorem squareAfter_amp_toInt {S : Int} (hlow : -(2 ^ 26) ≤ S) (hhigh : S ≤ 2 ^ 26) (c : Channel) (n : Nat) :
    (squareAfter S c n).amp.toInt = squareWave (c.freq.toNat + 1) (c.vol.toNat * S) n := by
  simp only [squareAfter, squareWave]
  split
  · exact level_toInt hlow hhigh c.vol
  · rfl

/-- A square channel that sounds is updated once by each of its gates. -/
theorem getChan_iterate_gate_of_square (S : Int) {j : Chan} {k : Block} (hrole : SquareRole j k)
    (hr : runs (getChan j k) = true) (n : Nat) :
    getChan j ((gate S j)^[n] k) = (squareUpdate S)^[n] (getChan j k) := by
  induction n generalizing k with
  | zero => rfl
  | succ n ih =>
    rw [iterate_succ_apply, iterate_succ_apply, ih (by simpa [SquareRole] using hrole) (by rwa [runs_gate]),
      getChan_gate_of_square S hrole hr]

/-! ### The pulse wave (R167) -/

theorem iterate_pulseUpdate_settings (S : Int) (c : Channel) (n : Nat) :
    ((pulseUpdate S)^[n] c).freq = c.freq ∧ ((pulseUpdate S)^[n] c).vol = c.vol := by
  induction n with
  | zero => exact ⟨rfl, rfl⟩
  | succ n ih => rwa [iterate_succ_apply', pulseUpdate_freq, pulseUpdate_vol]

/-- From within its cycle the pulse counter counts modulo the cycle length. -/
theorem iterate_pulseUpdate_cnt (S : Int) {c : Channel} (hcnt : c.cnt.toNat < 4 * (c.freq.toNat + 2)) (n : Nat) :
    ((pulseUpdate S)^[n] c).cnt.toNat = (c.cnt.toNat + n) % (4 * (c.freq.toNat + 2)) := by
  induction n with
  | zero => exact (Nat.mod_eq_of_lt hcnt).symm
  | succ n ih =>
    have hfreq := c.freq.isLt
    have hlt := Nat.mod_lt (c.cnt.toNat + n) (show 0 < 4 * (c.freq.toNat + 2) by omega)
    rw [iterate_succ_apply', pulseUpdate_cnt, pulseCount_toNat (by omega), (iterate_pulseUpdate_settings S c n).1, ih,
      restart_eq_mod hlt, Nat.mod_add_mod, add_assoc]

/-- In any full cycle of length `L` the counter is at most `f` as often as there are such counts. -/
theorem count_mod_le {f L : Nat} (h : f < L) (m : Nat) : Nat.count (fun n => (m + n) % L ≤ f) L = f + 1 := by
  have hperiodic : Periodic (fun n => n % L ≤ f) L := fun n => by simp only [Nat.add_mod_right]
  obtain ⟨r, rfl⟩ := Nat.exists_eq_add_of_le (show f + 1 ≤ L from h)
  have hhigh : Nat.count (fun n => n % (f + 1 + r) ≤ f) (f + 1) = f + 1 :=
    Nat.count_iff_forall.mpr fun n hn => by rw [Nat.mod_eq_of_lt (by omega)]; omega
  have hlow : Nat.count (fun n => (f + 1 + n) % (f + 1 + r) ≤ f) r = 0 :=
    Nat.count_iff_forall_not.mpr fun n hn => by rw [Nat.mod_eq_of_lt (by omega)]; omega
  rw [count_shift_of_periodic hperiodic, Nat.count_add, hhigh, hlow]

/-! ### The noise wave (R168) -/

/-- The block the noise gate leaves after `n` samples from counter 0 and amplitude 0. -/
def noiseAfter (S : Int) (k : Block) (n : Nat) : Block :=
  let lfsr := (lfsrStep k.nwidth)^[n / (k.ch2.freq.toNat + 1)] k.lfsr
  { k with
    lfsr := lfsr
    ch2 := { k.ch2 with
      cnt := BitVec.ofNat 16 (n % (k.ch2.freq.toNat + 1))
      amp := if n ≤ k.ch2.freq.toNat then 0 else noiseLevel S (lfsr.getLsbD 0) k.ch2.vol } }

theorem iterate_gate_noise {S : Int} {k : Block} (hr : runs (getChan .ch2 k) = true) (hcnt : k.ch2.cnt = 0)
    (hamp : k.ch2.amp = 0) (n : Nat) : (gate S .ch2)^[n] k = noiseAfter S k n := by
  induction n with
  | zero =>
    obtain ⟨_, _, ⟨⟩, _⟩ := k
    simp_all [noiseAfter]
  | succ n ih =>
    have hruns : runs (getChan .ch2 (noiseAfter S k n)) = true := hr
    have hcount : (noiseAfter S k n).ch2.cnt.toNat = n % (k.ch2.freq.toNat + 1) := restartCount_toNat k.ch2.freq n
    have hlt : n % (k.ch2.freq.toNat + 1) < k.ch2.freq.toNat + 1 := Nat.mod_lt n (Nat.succ_pos _)
    have hfreq := k.ch2.freq.isLt
    rw [iterate_succ_apply', ih, gate_of_runs hruns, updateChan]
    by_cases hpassed : k.ch2.freq.toNat + 1 ≤ n % (k.ch2.freq.toNat + 1) + 1
    · obtain ⟨hdiv, hmod⟩ := succ_div_mod_of_passed hpassed (Nat.succ_pos _)
      have hn : ¬n + 1 ≤ k.ch2.freq.toNat := fun h => by
        rw [Nat.mod_eq_of_lt (by omega)] at hmod
        omega
      rw [noiseUpdate_of_passed (by omega) (by rw [hcount]; exact hpassed)]
      simp [noiseAfter, hdiv, hmod, hn, iterate_succ_apply', lfsrBit]
    · obtain ⟨hdiv, hmod⟩ := succ_div_mod_of_lt (Nat.lt_of_not_le hpassed)
      have hn : n + 1 ≤ k.ch2.freq.toNat ↔ n ≤ k.ch2.freq.toNat :=
        ⟨Nat.le_of_succ_le, fun h => by rw [Nat.mod_eq_of_lt (by omega)] at hpassed; omega⟩
      rw [noiseUpdate_of_le (by rw [hcount]; exact Nat.le_of_not_lt hpassed), bump, hcount]
      simp [noiseAfter, hdiv, hmod, hn]

end Sys2Proof.Machine

/-! ### The statements settled -/

namespace Sys2Proof.Proofs

open Sys2Proof.Machine Sys2Proof.Safety

/-- Settles O34: the square update of the channel's own bank. -/
theorem squareChannelCountsAndToggles : Obligations.SquareChannelCountsAndToggles := by
  intro j s hs hinv hrole hactive hmuted
  obtain ⟨t, ht, hblock, -, -⟩ := exists_exec_sample_next hs
  have hbank : getChan j t.block = squareUpdate s.cfg.outputScale (getChan j s.block) :=
    hblock ▸ getChan_sampleBlock_of_square _ hrole ((runs_iff _).mpr ⟨hactive, hmuted⟩)
  obtain ⟨hpassed, hheld⟩ := squareUpdate_spec hinv.1.1 hinv.1.2 (cnt_lt_of_inv hinv j)
  refine ⟨t, ht, ?_⟩
  simp only [hbank]
  exact ⟨hpassed, hheld, squareUpdate_cnt_le _ _⟩

/-- Settles O35: the pulse update of channel 0's bank. -/
theorem pulseChannelFollowsItsCycle : Obligations.PulseChannelFollowsItsCycle := by
  intro s hs hinv hpulse hactive hmuted
  obtain ⟨t, ht, hblock, -, -⟩ := exists_exec_sample_next hs
  have hbank : t.block.ch0 = pulseUpdate s.cfg.outputScale s.block.ch0 :=
    hblock ▸ getChan_sampleBlock_of_pulse _ hpulse ((runs_iff _).mpr ⟨hactive, hmuted⟩)
  have hcount := pulseCount_toNat (c := s.block.ch0) (cnt_lt_of_inv hinv .ch0)
  have hfreq := s.block.ch0.freq.isLt
  refine ⟨t, ht, ?_⟩
  simp only [hbank]
  refine ⟨fun h => BitVec.eq_of_toNat_eq (hcount.trans (if_pos h)), fun h => hcount.trans (if_neg (Nat.not_le.mpr h)),
    pulseUpdate_amp_toInt hinv.1.1 hinv.1.2, ?_, by omega⟩
  rw [pulseUpdate_cnt, hcount]
  split <;> omega

/-- Settles O36: the noise update of channel 2's bank and the shift register. -/
theorem noiseChannelStepsTheLfsrOnAWrap : Obligations.NoiseChannelStepsTheLfsrOnAWrap := by
  intro s hs hinv hactive hmuted
  have hcnt := cnt_lt_of_inv hinv .ch2
  obtain ⟨t, ht, hblock, -, -⟩ := exists_exec_sample_next hs
  obtain ⟨hbank, -, -, hlfsr⟩ := hblock ▸
    chanAgrees_sampleBlock_noise s.cfg.outputScale ((runs_iff (getChan .ch2 s.block)).mpr ⟨hactive, hmuted⟩)
  simp only [getChan_ch2, forall_const] at hbank hlfsr
  refine ⟨t, ht, ?_⟩
  simp only [hbank, hlfsr]
  refine ⟨fun h => ?_, fun h => ?_⟩
  · rw [noiseUpdate_of_passed hcnt h]
    exact ⟨rfl, rfl, noiseLevel_bit_toInt hinv.1.1 hinv.1.2 _ _⟩
  · rw [noiseUpdate_of_le h]
    exact ⟨bump_toNat hcnt, rfl, rfl⟩

/-- Settles O37: a channel's gate reads nothing that the gate of another writes. -/
theorem gateOrderIsNotObservable : Obligations.GateOrderIsNotObservable := fun S _ _ k hij =>
  ⟨gate_comm S hij k, ((chanAgrees_gate_of_ne S hij k).gateOut_eq S).symm, fun hi =>
    ((chanAgrees_gate_of_ne S hi.symm k).lfsr rfl).symm⟩

/-- Settles O43: the bank follows `squareAfter`, whose amplitude is the square wave of half period `f + 1`. -/
theorem squareWavePeriod : Obligations.SquareWavePeriod := by
  intro j s hs hlegal hrole hactive hmuted hcnt hamp hlevel f
  refine ⟨squareWave (f + 1) ((getChan j s.block).vol.toNat * s.cfg.outputScale), fun n => ?_,
    fun n hn => squareWave_of_lt (Nat.lt_succ_of_le hn), squareWave_eq_zero_or _ _,
    squareWave_add_half (Nat.succ_pos f), fun m _ => ?_⟩
  · obtain ⟨t, ht, hblock, -, -⟩ := exists_execAll_samples hs n
    refine ⟨t, ht, ?_⟩
    rw [hblock, (chanAgrees_iterate_sampleBlock _ j _ n).bank,
      getChan_iterate_gate_of_square _ hrole ((runs_iff _).mpr ⟨hactive, hmuted⟩), iterate_squareUpdate _ hcnt hamp]
    exact squareAfter_amp_toInt hlegal.1 hlegal.2 _ n
  · exact (List.countP_congr fun i _ => by simp).trans (count_squareWave_ne_zero (Nat.succ_pos f) hlevel m)

/-- Settles O44: the counter runs modulo the cycle length, through each of its values once a cycle. -/
theorem pulseWaveDuty : Obligations.PulseWaveDuty := by
  intro S c hlow hhigh hcnt
  have hcount : ∀ n, ((pulseUpdate S)^[n + 1] c).cnt.toNat = (c.cnt.toNat + 1 + n) % (4 * (c.freq.toNat + 2)) :=
    fun n => by rw [iterate_pulseUpdate_cnt S hcnt, add_assoc, add_comm 1 n]
  have hhighs := count_mod_le (show c.freq.toNat < 4 * (c.freq.toNat + 2) by omega) (c.cnt.toNat + 1)
  have hsplit := List.length_eq_countP_add_countP (l := List.range (4 * (c.freq.toNat + 2)))
    fun n => decide ((c.cnt.toNat + 1 + n) % (4 * (c.freq.toNat + 2)) ≤ c.freq.toNat)
  simp only [Nat.count] at hhighs
  simp only [decide_eq_true_eq, not_le, List.length_range, hhighs] at hsplit
  refine ⟨fun n => ?_, ?_, ?_⟩
  · obtain ⟨hfreq, hvol⟩ := iterate_pulseUpdate_settings S c n
    rw [Function.iterate_succ_apply', pulseUpdate_amp_toInt hlow hhigh, hfreq, hvol]
  · simp only [hcount, hhighs]
  · simp only [hcount]
    omega

/-- Settles O45: the noise channel's part of the block follows `noiseAfter`. -/
theorem noiseRate : Obligations.NoiseRate := by
  intro s hs hlegal hactive hmuted hcnt hamp n
  obtain ⟨t, ht, hblock, -, -⟩ := exists_execAll_samples hs n
  have h := chanAgrees_iterate_sampleBlock s.cfg.outputScale .ch2 s.block n
  rw [← hblock, iterate_gate_noise ((runs_iff _).mpr ⟨hactive, hmuted⟩) hcnt hamp] at h
  obtain ⟨hbank, -, -, hlfsr⟩ := h
  simp only [getChan_ch2, forall_const] at hbank hlfsr
  refine ⟨t, ht, hlfsr, ?_⟩
  rw [hbank, hlfsr]
  simp only [noiseAfter]
  split
  · rfl
  · exact noiseLevel_bit_toInt hlegal.1 hlegal.2 _ _

/-- Settles O46: the samples leave the channel's part of the block, and what follows keeps two machines that agree on
that part in agreement. -/
theorem gatedOutSamplesMightNotHaveHappened : Obligations.GatedOutSamplesMightNotHaveHappened := by
  intro j n s hs hsilent
  obtain ⟨t, ht, hblock, hstarted, hcfg⟩ := exists_execAll_samples hs n
  have hagree : StateAgrees j s t := ⟨hs.trans hstarted.symm, hcfg.symm,
    hblock ▸ (chanAgrees_iterate_sampleBlock_of_silent _ ((runs_eq_false_iff _).mpr hsilent) n).symm⟩
  refine ⟨t, ht, hagree.block.bank.symm, fun hj => (hagree.block.lfsr hj).symm, fun is s' hs' => ?_⟩
  obtain ⟨t', ht', hagree'⟩ := hagree.execAll_next hs'
  exact ⟨t', ht', hagree'.block.bank.symm, fun hj => (hagree'.block.lfsr hj).symm⟩

/-- Settles O47: the write leaves the counter, which the channel's update compares with the saturated operand. -/
theorem frequencyWriteIsComparedAtTheNextSample : Obligations.FrequencyWriteIsComparedAtTheNextSample := by
  intro j d s hs hinv hactive hmuted
  obtain ⟨u, hu, hbank, ⟨hstarted, -⟩, ⟨hpulse, -⟩, -⟩ := exists_writeChannel_next hs j (setFreq (freqOf d))
  obtain ⟨t, ht, hblock, -, -⟩ := exists_exec_sample_next (hstarted.trans hs)
  have hruns : runs (getChan j u.block) = true := by
    rw [hbank]
    exact (runs_iff _).mpr ⟨hactive, hmuted⟩
  have hcnt : (getChan j u.block).cnt = (getChan j s.block).cnt := by rw [hbank, setFreq_cnt]
  have hsample := sampleBlock_cnt u.cfg.outputScale hruns (hcnt ▸ cnt_lt_of_inv hinv j)
  refine ⟨u, hu, hcnt, t, ht, ?_⟩
  rw [hcnt, hbank, setFreq_freq, hpulse, ← hblock] at hsample
  simp only [← freqOf_toNat, hsample]
  norm_cast

/-- Settles O48: the write leaves the banks, and the next SAMPLE runs the update the new `pulse` selects. -/
theorem pulseSwitchCarriesTheCounterOver : Obligations.PulseSwitchCarriesTheCounterOver := by
  intro d s hs hinv hactive hmuted
  have hruns : runs (getChan .ch0 s.block) = true := (runs_iff _).mpr ⟨hactive, hmuted⟩
  have hcnt := cnt_lt_of_inv hinv .ch0
  refine ⟨_, writeGlobal_started hs _, ⟨rfl, rfl, rfl⟩, ?_⟩
  obtain ⟨t, ht, hblock, -, -⟩ := exists_exec_sample_next (s := mapBlock (setPulse (flagOf d)) s) hs
  refine ⟨t, ht, ?_⟩
  by_cases hd : d = 0
  · have hpulse : (setPulse (flagOf d) s.block).pulse = false := by
      rw [hd]
      rfl
    have hbank : t.block.ch0 = squareUpdate s.cfg.outputScale s.block.ch0 :=
      hblock ▸ getChan_sampleBlock_of_square _ (.inr ⟨rfl, hpulse⟩) hruns
    simp only [if_pos hd, hbank]
    exact squareUpdate_spec hinv.1.1 hinv.1.2 hcnt
  · have hpulse : (setPulse (flagOf d) s.block).pulse = true := (flagOf_iff d).mpr hd
    have hbank : t.block.ch0 = pulseUpdate s.cfg.outputScale s.block.ch0 :=
      hblock ▸ getChan_sampleBlock_of_pulse _ hpulse hruns
    simp only [if_neg hd, hbank]
    exact ⟨pulseCount_toNat hcnt, pulseUpdate_amp_toInt hinv.1.1 hinv.1.2⟩

/-- Settles O33: a gate that is shut leaves the channel's part of the block and gives out 0. -/
theorem gatedOutChannelIsFrozenAndSilent : Obligations.GatedOutChannelIsFrozenAndSilent := by
  intro j s hs hsilent
  have hr : runs (getChan j s.block) = false := (runs_eq_false_iff _).mpr hsilent
  have hagree := chanAgrees_iterate_sampleBlock_of_silent s.cfg.outputScale hr 1
  have hosc : BitVec.ofInt 32 (sampleOsc s.cfg.outputScale j s.block) = 0 := by
    simp [sampleOsc, sampleOut_eq, hr]
  refine ⟨_, whenStarted_of_started hs _, hagree.bank, hagree.lfsr, _, _, _, _, rfl, ?_⟩
  cases j <;> exact hosc

end Sys2Proof.Proofs

/-! SUPPORT and proofs. The mixer, 43_mixer.md: the range of the amplitudes, the mix and the clamp in numbers, the
response of a SAMPLE, and the statements these settle. -/

namespace Sys2Proof.Machine

open Sys2Proof.Safety

/-! ### Amplitudes in range (R24, R195, R196) -/

theorem ampIsLevel_of_blockOk {S : Int} {k : Block} (h : BlockOk S k) (j : Chan) : AmpIsLevel S (getChan j k) := by
  obtain ⟨hbank, -⟩ := (blockOk_iff S k).mp h
  exact (hbank j).2

/-- R24: 0 is the level of volume 0, so that every level is `v * S`. -/
theorem exists_amp_eq_mul {S : Int} {c : Channel} (h : AmpIsLevel S c) :
    ∃ v : Nat, v ≤ 15 ∧ c.amp.toInt = v * S := by
  obtain hzero | ⟨v, hv⟩ := h
  · exact ⟨0, by decide, by simp [hzero]⟩
  · exact ⟨v, Nat.le_of_lt_succ v.isLt, hv⟩

/-- R195: with a legal scale a level is within 15 * 2^26. -/
theorem abs_amp_le {S : Int} {c : Channel} (hlow : -(2 ^ 26) ≤ S) (hhigh : S ≤ 2 ^ 26) (h : AmpIsLevel S c) :
    |c.amp.toInt| ≤ 15 * 2 ^ 26 := by
  obtain ⟨v, hv, hamp⟩ := exists_amp_eq_mul h
  rw [hamp, abs_le]
  exact volume_times_scale_bounds hlow hhigh hv

theorem abs_amp_le_of_inv {s : State} (h : Inv s) (j : Chan) : |(getChan j s.block).amp.toInt| ≤ 15 * 2 ^ 26 := by
  obtain ⟨⟨hlow, hhigh⟩, hblock⟩ := h
  exact abs_amp_le hlow hhigh (ampIsLevel_of_blockOk hblock j)

/-- R196: a level of a scale that is not negative is not negative. -/
theorem amp_nonneg {S : Int} {c : Channel} (hS : 0 ≤ S) (h : AmpIsLevel S c) : 0 ≤ c.amp.toInt := by
  obtain ⟨v, -, hamp⟩ := exists_amp_eq_mul h
  rw [hamp]
  exact mul_nonneg v.cast_nonneg hS

/-! ### The outputs (R160, R190) -/

/-- A channel's output in the terms of R160: its amplitude after the sample if it is active and not muted, else 0. -/
theorem sampleOut_eq_ite (S : Int) (j : Chan) (k : Block) :
    sampleOut S j k = if (getChan j k).active = true ∧ (getChan j k).muted = false
      then (getChan j (sampleBlock S k)).amp.toInt else 0 := by
  simp only [sampleOut_eq, runs_iff]

theorem sampleOut_of_silent {S : Int} {j : Chan} {k : Block} (h : runs (getChan j k) = false) :
    sampleOut S j k = 0 := by
  simp [sampleOut_eq, h]

/-- What holds of 0 and of every amplitude after the sample holds of every output. -/
theorem sampleOut_induction {P : Int → Prop} {S : Int} {j : Chan} {k : Block} (hzero : P 0)
    (hamp : P (getChan j (sampleBlock S k)).amp.toInt) : P (sampleOut S j k) := by
  rw [sampleOut_eq]
  split
  · exact hamp
  · exact hzero

section
variable {s : State} (h : Inv s)
include h

theorem ampIsLevel_sampleBlock (j : Chan) :
    AmpIsLevel s.cfg.outputScale (getChan j (sampleBlock s.cfg.outputScale s.block)) := by
  obtain ⟨⟨hlow, hhigh⟩, hblock⟩ := h
  exact ampIsLevel_of_blockOk (blockOk_sampleBlock hlow hhigh hblock) j

theorem abs_sampleOut_le (j : Chan) : |sampleOut s.cfg.outputScale j s.block| ≤ 15 * 2 ^ 26 :=
  sampleOut_induction (P := fun o => |o| ≤ 15 * 2 ^ 26) (by decide)
    (abs_amp_le h.1.1 h.1.2 (ampIsLevel_sampleBlock h j))

/-- R194, R195: an oscilloscope value fits its 32 bits. -/
theorem ofInt32_sampleOsc (j : Chan) :
    (BitVec.ofInt 32 (sampleOsc s.cfg.outputScale j s.block)).toInt = 2 * sampleOut s.cfg.outputScale j s.block := by
  obtain ⟨hlow, hhigh⟩ := abs_le.mp (abs_sampleOut_le h j)
  simp only [sampleOsc, oscGain]
  exact ofInt32_toInt (by omega) (by omega)

theorem sampleOut_nonneg (hS : 0 ≤ s.cfg.outputScale) (j : Chan) : 0 ≤ sampleOut s.cfg.outputScale j s.block :=
  sampleOut_induction (P := fun o => 0 ≤ o) le_rfl (amp_nonneg hS (ampIsLevel_sampleBlock h j))

end

/-! ### The mix and the clamp (R191 to R193) -/

theorem mix_false (o0 o1 o2 : Int) : mix false o0 o1 o2 = o0 + o1 + o2 := rfl

theorem mix_true (o0 o1 o2 : Int) : mix true o0 o1 o2 = o0 * o1 + o2 := rfl

theorem mix_nonneg (ring : Bool) {o0 o1 o2 : Int} (h0 : 0 ≤ o0) (h1 : 0 ≤ o1) (h2 : 0 ≤ o2) :
    0 ≤ mix ring o0 o1 o2 := by
  cases ring
  · exact add_nonneg (add_nonneg h0 h1) h2
  · exact add_nonneg (mul_nonneg h0 h1) h2

/-- R195: the ring mix has the larger bound, which the additive mix meets too. -/
theorem abs_mix_le (ring : Bool) {o0 o1 o2 : Int} (h0 : |o0| ≤ 15 * 2 ^ 26) (h1 : |o1| ≤ 15 * 2 ^ 26)
    (h2 : |o2| ≤ 15 * 2 ^ 26) : |mix ring o0 o1 o2| ≤ (15 * 2 ^ 26) ^ 2 + 15 * 2 ^ 26 := by
  cases ring with
  | false =>
    calc |o0 + o1 + o2| ≤ |o0| + |o1| + |o2| := abs_add_three o0 o1 o2
      _ ≤ (15 * 2 ^ 26) ^ 2 + 15 * 2 ^ 26 := by omega
  | true =>
    have hprod : |o0| * |o1| ≤ (15 * 2 ^ 26) * (15 * 2 ^ 26) :=
      mul_le_mul h0 h1 (abs_nonneg o1) (by decide)
    calc |o0 * o1 + o2| ≤ |o0 * o1| + |o2| := abs_add_le _ _
      _ = |o0| * |o1| + |o2| := by rw [abs_mul]
      _ ≤ (15 * 2 ^ 26) ^ 2 + 15 * 2 ^ 26 := by omega

/-- R195: a mix within 64 bits is what two's-complement arithmetic of that width gives. -/
theorem ofInt64_mix (ring : Bool) {o0 o1 o2 : Int} (h : |mix ring o0 o1 o2| < 2 ^ 63) :
    (BitVec.ofInt 64 (mix ring o0 o1 o2)).toInt = mix ring o0 o1 o2 := by
  obtain ⟨hlow, hhigh⟩ := abs_lt.mp h
  exact BitVec.toInt_ofInt_eq_self (by decide) hlow.le hhigh

theorem clampOut_eq (m : Int) : clampOut m = min (max m (-32768)) 32767 := rfl

/-- The clamp is at its upper end exactly from `OUT_MAX` on. -/
theorem clampOut_eq_max_iff (m : Int) : clampOut m = 32767 ↔ 32767 ≤ m := by
  rw [clampOut_eq]
  omega

/-! ### A SAMPLE while no channel sounds (R190, R252) -/

section
variable {k : Block} (h : ∀ j, runs (getChan j k) = false)
include h

theorem sampleBlock_of_all_silent (S : Int) : sampleBlock S k = k := by
  rw [sampleBlock, gate_of_silent (h .ch0), gate_of_silent (h .ch1), gate_of_silent (h .ch2)]

theorem sampleOsc_of_all_silent (S : Int) (j : Chan) : sampleOsc S j k = 0 := by
  rw [sampleOsc, sampleOut_of_silent (h j), mul_zero]

theorem sampleY_of_all_silent (S : Int) : sampleY S k = 0 := by
  simp only [sampleY, sampleOut_of_silent (h _)]
  cases (sampleBlock S k).ring <;> rfl

end

/-! ### The word and the response of a SAMPLE (R71, R190 to R194) -/

/-- R76: a SAMPLE with a field that must be 0 and is not decodes to nothing. -/
theorem decode_of_kind_sample {w : Txn} (hk : kindNum w = 2) (h : addrNum w ≠ 0 ∨ dataOf w ≠ 0) :
    decode w = .error .reservedEncoding := by
  have hkind : kindField w = 2 := BitVec.eq_of_toNat_eq hk
  have haddr : addrField w ≠ 0 ∨ dataField w ≠ 0 := h.imp_left fun ha hz => ha (congrArg BitVec.toNat hz)
  rw [← mkTxn_fields w, hkind, decode_sample, decodeBare_of_reserved haddr]

theorem exec_sample_of_started {s : State} (hs : s.started = true) :
    exec .sample s = .next (emit (sampleY s.cfg.outputScale s.block) (sampleOsc s.cfg.outputScale .ch0 s.block)
      (sampleOsc s.cfg.outputScale .ch1 s.block) (sampleOsc s.cfg.outputScale .ch2 s.block)
      (mapBlock (sampleBlock s.cfg.outputScale) s)) :=
  whenStarted_of_started hs _

/-- R190 to R194, R195: under the invariant the response in numbers is the clamped mix and the doubled outputs. -/
theorem exec_sample_response {s t : State} (hinv : Inv s) (h : exec .sample s = .next t) :
    ∃ (y : BitVec 16) (osc0 osc1 osc2 : BitVec 32),
      t.responses = s.responses ++ [.sample y osc0 osc1 osc2] ∧
      y.toInt = clampOut (mix s.block.ring (sampleOut s.cfg.outputScale .ch0 s.block)
        (sampleOut s.cfg.outputScale .ch1 s.block) (sampleOut s.cfg.outputScale .ch2 s.block)) ∧
      osc0.toInt = 2 * sampleOut s.cfg.outputScale .ch0 s.block ∧
      osc1.toInt = 2 * sampleOut s.cfg.outputScale .ch1 s.block ∧
      osc2.toInt = 2 * sampleOut s.cfg.outputScale .ch2 s.block := by
  have hosc := ofInt32_sampleOsc hinv
  obtain ⟨-, h⟩ := whenStarted_next h
  cases h
  refine ⟨_, _, _, _, rfl, ?_, hosc .ch0, hosc .ch1, hosc .ch2⟩
  rw [sampleY, sampleBlock_ring]
  exact ofInt16_clampOut _

end Sys2Proof.Machine

/-! ### The statements settled -/

namespace Sys2Proof.Proofs

open Sys2Proof.Machine Sys2Proof.Safety

/-- Settles O32: the response is that of the channels' outputs, and SAMPLE leaves all settings. -/
theorem sampleRespondsWithTheClampedMix : Obligations.SampleRespondsWithTheClampedMix := by
  intro s hs hinv
  refine ⟨by decide, fun w hk h => transact_of_decode_error hs (decode_of_kind_sample hk h), ?_⟩
  obtain ⟨t, ht, -⟩ := exists_exec_sample_next hs
  obtain ⟨-, hblock, hstarted, hrefusals, hcfg, hhost, -⟩ := execSample_next ht
  refine ⟨t, ht, ?_⟩
  simp only [hblock, ← sampleOut_eq_ite]
  exact ⟨exec_sample_response hinv ht, hstarted, hrefusals, hcfg, hhost, sampleBlock_pulse _ _, sampleBlock_ring _ _,
    sampleBlock_nwidth _ _, fun j => sampleBlock_settings _ j _⟩

/-- Settles O49: amplitudes are levels before and after a sample, and the bounds on the mix keep it within 64 bits. -/
theorem intermediateValuesFitTheirWidths : Obligations.IntermediateValuesFitTheirWidths := by
  refine ⟨fun s h => abs_amp_le_of_inv h, fun s t h ht => abs_amp_le_of_inv (inv_of_exec h ht), ?_⟩
  intro o0 o1 o2 h0 h1 h2
  have hmix : ∀ ring, |mix ring o0 o1 o2| < 2 ^ 63 := fun ring => (abs_mix_le ring h0 h1 h2).trans_lt (by decide)
  obtain ⟨hlow, hhigh⟩ := abs_le.mp h0
  have hosc : |2 * o0| ≤ 30 * 2 ^ 26 := abs_le.mpr ⟨by omega, by omega⟩
  refine ⟨h0.trans_lt (by decide), hosc, hosc.trans_lt (by decide), ofInt32_toInt (by omega) (by omega), ?_,
    fun ring => ⟨abs_mix_le ring h0 h1 h2, hmix ring⟩, ?_, ?_⟩
  · rw [show (2 : BitVec 32) = BitVec.ofInt 32 2 from rfl, ← BitVec.ofInt_mul]
    exact ofInt32_toInt (by omega) (by omega)
  · rw [← BitVec.ofInt_mul, ← BitVec.ofInt_add]
    exact ofInt64_mix true (hmix true)
  · rw [← BitVec.ofInt_add, ← BitVec.ofInt_add]
    exact ofInt64_mix false (hmix false)

/-- Settles O50: no level of such a scale is negative, so neither are the outputs, their mix and their doubles. -/
theorem nonnegativeScaleGivesNonnegativeSamples : Obligations.NonnegativeScaleGivesNonnegativeSamples := by
  intro s hs hinv hS
  have h0 := sampleOut_nonneg hinv hS .ch0
  have h1 := sampleOut_nonneg hinv hS .ch1
  have h2 := sampleOut_nonneg hinv hS .ch2
  have hmix := mix_nonneg s.block.ring h0 h1 h2
  obtain ⟨t, ht, hblock, -, -⟩ := exists_exec_sample_next hs
  obtain ⟨y, osc0, osc1, osc2, hresponse, hy, hosc0, hosc1, hosc2⟩ := exec_sample_response hinv ht
  refine ⟨t, ht, fun j => hblock ▸ amp_nonneg hS (ampIsLevel_sampleBlock hinv j), y, osc0, osc1, osc2,
    hresponse, ?_⟩
  rw [hy, hosc0, hosc1, hosc2, clampOut_eq]
  omega

/-- Settles O51: the upper clamp is met from 32767 on, and 225 * S^2 + 15 * S passes it between 12 and 13. -/
theorem saturationPoints : Obligations.SaturationPoints := by
  intro S hS
  have hadd : mix false (15 * S) (15 * S) (15 * S) = 45 * S := by
    rw [mix_false]
    ring
  have hring : mix true (15 * S) (15 * S) (15 * S) = 225 * S ^ 2 + 15 * S := by
    rw [mix_true]
    ring
  refine ⟨hadd, hring, ?_, ?_, ?_, ?_⟩
  · rw [clampOut_eq_max_iff, hadd]
    omega
  · rw [clampOut_eq_max_iff, hring]
    constructor
    · intro h
      by_contra hlt
      have hsq : S ^ 2 ≤ 12 ^ 2 := pow_le_pow_left₀ hS.le (by omega) 2
      omega
    · intro h
      have hsq : 13 ^ 2 ≤ S ^ 2 := pow_le_pow_left₀ (by decide) h 2
      omega
  · rintro rfl
    rfl
  · rintro rfl
    rfl

/-- Settles O38: with every gate shut the block stays, and the outputs are 0. -/
theorem silentBlockSamplesZero : Obligations.SilentBlockSamplesZero := by
  intro s hs hsilent
  have h : ∀ j, runs (getChan j s.block) = false := fun j => (runs_eq_false_iff _).mpr (hsilent j)
  rw [exec_sample_of_started hs, sampleY_of_all_silent h]
  simp only [sampleOsc_of_all_silent h, emit, mapBlock, sampleBlock_of_all_silent h]
  rfl

end Sys2Proof.Proofs

/-! SUPPORT and proofs. The refusals of 60_exceptions.md: R220's conditions on a word against the decoder's errors, what
is refused before the first RESET, and which of the words that decode are performed. -/

/-! ### The addresses that are refused (R74, R135) -/

namespace Sys2Proof

open Sys2Proof.Machine Sys2Proof.Safety

/-- The addresses whose channel field is 3 (R74). -/
abbrev ChannelThreeAddr (n : Nat) : Prop := (0x0C ≤ n ∧ n ≤ 0x0F) ∨ n = 0x1B ∨ n = 0x1F

/-- The addresses of no register (R135). -/
abbrev ReservedAddr (n : Nat) : Prop := (0x15 ≤ n ∧ n ≤ 0x17) ∨ 0x20 ≤ n

/-- The addresses of the read-only registers (R135). -/
abbrev ReadOnlyAddr (n : Nat) : Prop :=
  n = 0x13 ∨ n = 0x14 ∨ (0x18 ≤ n ∧ n ≤ 0x1A) ∨ (0x1C ≤ n ∧ n ≤ 0x1E)

/-- The registers without a WR (R135). -/
def Reg.readOnly : Reg → Bool
  | .lfsr | .volmax | .cnt _ | .amp _ => true
  | .freq _ | .vol _ | .active _ | .muted _ | .pulse | .ring | .nwidth => false

theorem regAt_eq_noSuchChannel_iff :
    ∀ {a : BitVec 6}, regAt a = .error .noSuchChannel ↔ ChannelThreeAddr a.toNat := by decide

theorem regAt_eq_reservedAddress_iff :
    ∀ {a : BitVec 6}, regAt a = .error .reservedAddress ↔ ReservedAddr a.toNat := by decide

theorem regAt_ne_reservedEncoding : ∀ {a : BitVec 6}, regAt a ≠ .error .reservedEncoding := by decide

theorem any_readOnly_regAt_iff :
    ∀ {a : BitVec 6}, (regAt a).toOption.any Reg.readOnly = true ↔ ReadOnlyAddr a.toNat := by decide

/-! ### The errors of each kind of word (R76, R77) -/

theorem writeOf_eq_error_iff {d : Word} {r : Reg} {e : DecodeError} :
    writeOf d r = .error e ↔ r.readOnly = true ∧ e = .reservedAddress := by
  cases r <;> simp [writeOf, Reg.readOnly, eq_comm]

theorem decodeWrite_eq_error_iff {a : BitVec 6} {d : Word} {e : DecodeError} :
    decodeWrite a d = .error e ↔ regAt a = .error e ∨ (ReadOnlyAddr a.toNat ∧ e = .reservedAddress) := by
  rw [← any_readOnly_regAt_iff]
  cases h : regAt a <;> simp [decodeWrite, h, writeOf_eq_error_iff, Except.toOption]

theorem decodeRead_eq_error_iff {a : BitVec 6} {d : Word} {e : DecodeError} :
    decodeRead a d = .error e ↔ (d ≠ 0 ∧ e = .reservedEncoding) ∨ (d = 0 ∧ regAt a = .error e) := by
  by_cases hd : d = 0
  · cases h : regAt a <;> simp [decodeRead, hd, h]
  · have hr : decodeRead a d = .error .reservedEncoding := if_neg hd
    rw [hr, Except.error.injEq]
    exact ⟨fun he => .inl ⟨hd, he.symm⟩, fun he => he.elim (·.2.symm) fun hz => absurd hz.1 hd⟩

theorem decodeBare_eq_error_iff {i : Instr} {a : BitVec 6} {d : Word} {e : DecodeError} :
    decodeBare i a d = .error e ↔ (a ≠ 0 ∨ d ≠ 0) ∧ e = .reservedEncoding := by
  by_cases h : a = 0 ∧ d = 0
  · simp [decodeBare, h]
  · have hor : a ≠ 0 ∨ d ≠ 0 := not_and_or.mp h
    rw [decodeBare_of_reserved hor, Except.error.injEq]
    exact ⟨fun he => ⟨hor, he.symm⟩, fun he => he.2.symm⟩

/-! ### The conditions of R220 are the decoder's errors (R220, R222) -/

/-- A word of each kind, and what it decodes to by its address and data (R71, R77). -/
theorem decode_by_kind (w : Txn) :
    (kindNum w = 0 ∧ decode w = decodeWrite (addrField w) (dataField w)) ∨
      (kindNum w = 1 ∧ decode w = decodeRead (addrField w) (dataField w)) ∨
      ((kindNum w = 2 ∨ kindNum w = 3) ∧ ∃ i, decode w = decodeBare i (addrField w) (dataField w)) := by
  have hk : kindNum w < 4 := (kindField w).isLt
  unfold decode
  split
  · exact .inl ⟨‹_›, rfl⟩
  · exact .inr (.inl ⟨‹_›, rfl⟩)
  · exact .inr (.inr ⟨.inl ‹_›, _, rfl⟩)
  · next h0 h1 h2 =>
    have hne : kindNum w ≠ 0 ∧ kindNum w ≠ 1 ∧ kindNum w ≠ 2 := ⟨h0, h1, h2⟩
    exact .inr (.inr ⟨.inr (by omega), _, rfl⟩)

section

variable {w : Txn}

theorem badFields_iff :
    BadFields w ↔ (kindNum w ≠ 0 ∧ dataField w ≠ 0) ∨ ((kindNum w = 2 ∨ kindNum w = 3) ∧ addrField w ≠ 0) := by
  have haddr : addrNum w ≠ 0 ↔ addrField w ≠ 0 := BitVec.toNat_inj (y := 0).not
  rw [BadFields, haddr]
  rfl

theorem namesChannel3_iff :
    NamesChannel3 w ↔ (kindNum w = 0 ∨ kindNum w = 1) ∧ ChannelThreeAddr (addrField w).toNat := Iff.rfl

theorem badAddress_iff :
    BadAddress w ↔ (kindNum w = 0 ∧ ReadOnlyAddr (addrField w).toNat) ∨
      ((kindNum w = 0 ∨ kindNum w = 1) ∧ ReservedAddr (addrField w).toNat) := Iff.rfl

theorem decode_eq_reservedEncoding_iff : decode w = .error .reservedEncoding ↔ BadFields w := by
  rw [badFields_iff]
  rcases decode_by_kind w with ⟨hk, hd⟩ | ⟨hk, hd⟩ | ⟨hk, i, hd⟩ <;> rw [hd]
  · simp [decodeWrite_eq_error_iff, regAt_ne_reservedEncoding, hk]
  · simp [decodeRead_eq_error_iff, regAt_ne_reservedEncoding, hk]
  · have hk0 : kindNum w ≠ 0 := by omega
    simp [decodeBare_eq_error_iff, hk, hk0, or_comm]

theorem decode_eq_noSuchChannel_iff :
    decode w = .error .noSuchChannel ↔ ¬BadFields w ∧ NamesChannel3 w := by
  rw [badFields_iff, namesChannel3_iff]
  rcases decode_by_kind w with ⟨hk, hd⟩ | ⟨hk, hd⟩ | ⟨hk, i, hd⟩ <;> rw [hd]
  · simp [decodeWrite_eq_error_iff, regAt_eq_noSuchChannel_iff, hk]
  · simp [decodeRead_eq_error_iff, regAt_eq_noSuchChannel_iff, hk]
  · have hk0 : kindNum w ≠ 0 := by omega
    have hk1 : kindNum w ≠ 1 := by omega
    simp [decodeBare_eq_error_iff, hk0, hk1]

theorem decode_eq_reservedAddress_iff :
    decode w = .error .reservedAddress ↔ ¬BadFields w ∧ BadAddress w := by
  rw [badFields_iff, badAddress_iff]
  rcases decode_by_kind w with ⟨hk, hd⟩ | ⟨hk, hd⟩ | ⟨hk, i, hd⟩ <;> rw [hd]
  · simp [decodeWrite_eq_error_iff, regAt_eq_reservedAddress_iff, hk, or_comm]
  · simp [decodeRead_eq_error_iff, regAt_eq_reservedAddress_iff, hk]
  · have hk0 : kindNum w ≠ 0 := by omega
    have hk1 : kindNum w ≠ 1 := by omega
    simp [decodeBare_eq_error_iff, hk0, hk1]

/-- A word none of the decoder's conditions applies to decodes. -/
theorem exists_decode_ok (hf : ¬BadFields w) (hc : ¬NamesChannel3 w) (ha : ¬BadAddress w) :
    ∃ i, decode w = .ok i := by
  cases h : decode w with
  | ok i => exact ⟨i, rfl⟩
  | error e =>
    cases e with
    | reservedEncoding => exact absurd (decode_eq_reservedEncoding_iff.mp h) hf
    | noSuchChannel => exact absurd (decode_eq_noSuchChannel_iff.mp h).2 hc
    | reservedAddress => exact absurd (decode_eq_reservedAddress_iff.mp h).2 ha

theorem decode_eq_ok_wrnmode_iff {d : Word} :
    decode w = .ok (.wrnmode d) ↔ kindNum w = 0 ∧ addrNum w = 0x12 ∧ dataOf w = d := by
  rw [decode_eq_ok_iff]
  constructor
  · rintro ⟨-, rfl⟩
    exact ⟨congrArg BitVec.toNat (kindField_mkTxn 0 0x12 d), congrArg BitVec.toNat (addrField_mkTxn 0 0x12 d),
      dataField_mkTxn 0 0x12 d⟩
  · rintro ⟨hk, ha, rfl⟩
    have hkind : kindField w = 0 := BitVec.eq_of_toNat_eq hk
    have haddr : addrField w = 0x12 := BitVec.eq_of_toNat_eq ha
    refine ⟨rfl, Eq.trans ?_ (mkTxn_fields w)⟩
    rw [hkind, haddr]
    rfl

end

end Sys2Proof

namespace Sys2Proof.Machine

open Sys2Proof.Safety

/-! ### What a word is refused for, and when its transaction is performed -/

/-- The refusal of a word that decodes to nothing (R220, R251). -/
theorem transact_of_undecodable {w : Txn} {e : DecodeError} (h : decode w = .error e) (s : State) :
    transact w s = .refused (if s.started then refusalOf e else .notStarted) := by
  simp [transact, h]

/-- R251: before the first RESET every transaction but RESET is refused. -/
theorem exec_of_not_started {i : Instr} {s : State} (hs : s.started = false) (hi : i ≠ .reset) :
    exec i s = .refused .notStarted := by
  cases i with
  | reset => exact absurd rfl hi
  | _ => exact whenStarted_of_not_started hs _

/-- R251: before the first RESET every word but RESET's is refused, whether it decodes or not. -/
theorem transact_of_not_started {w : Txn} {s : State} (hs : s.started = false) (hw : w ≠ 0xC000000000) :
    transact w s = .refused .notStarted := by
  cases hd : decode w with
  | error e => simp [transact_of_undecodable hd, hs]
  | ok i =>
    rw [transact_of_decode hd]
    obtain ⟨-, rfl⟩ := decode_eq_ok_iff.mp hd
    exact exec_of_not_started hs fun hi => hw (by rw [hi]; rfl)

theorem exists_numberOf {c : BitVec 2} (hc : c ≠ 3) : ∃ j, c = numberOf j := by
  cases h : channelOf c with
  | none => exact absurd (channelOf_eq_none.mp h) hc
  | some j => exact ⟨j, channelOf_eq_some.mp h⟩

/-- In a started machine a transaction with a channel of the block and, for WRNMODE, a legal width is performed. -/
theorem exists_exec_next {i : Instr} {s : State} (hs : s.started = true) (hi : i.wellFormed = true)
    (hwidth : ∀ d, i = .wrnmode d → ∃ w, widthOf (sext32 d) = some w) : ∃ t, exec i s = .next t := by
  rw [wellFormed_iff] at hi
  cases i with
  | wrfreq c | wrvol c | wract c | wrmute c | rdfreq c | rdvol c | rdact c | rdmute c | rdcnt c | rdamp c =>
    obtain ⟨j, rfl⟩ := exists_numberOf fun hc => hi (congrArg some hc)
    exact ⟨_, (whenStarted_of_started hs _).trans (withChannel_numberOf j _)⟩
  | wrnmode d =>
    obtain ⟨w, hw⟩ := hwidth d rfl
    exact ⟨_, (execWrnmode_of_widthOf hw s).trans (writeGlobal_started hs _)⟩
  | reset => exact ⟨_, rfl⟩
  | _ => exact ⟨_, whenStarted_of_started hs _⟩

theorem exists_widthOf {d : Word} (h : d.toInt = 3 ∨ d.toInt = 4 ∨ d.toInt = 10) :
    ∃ w, widthOf (sext32 d) = some w := by
  rcases h with h | h | h
  · exact ⟨.w3, widthOf_eq_some.mpr h⟩
  · exact ⟨.w4, widthOf_eq_some.mpr h⟩
  · exact ⟨.w10, widthOf_eq_some.mpr h⟩

/-- A word that decodes is performed, unless its width is illegal (R100) or the machine has not started and the word is
not RESET's (R251). -/
theorem exists_exec_next_of_decode {w : Txn} {i : Instr} {s : State} (hd : decode w = .ok i)
    (hs : i ≠ .reset → s.started = true) (hw : ¬BadWidth w) : ∃ t, exec i s = .next t := by
  rcases eq_or_ne i .reset with rfl | hi
  · exact ⟨_, rfl⟩
  · refine exists_exec_next (hs hi) (decode_eq_ok_iff.mp hd).1 ?_
    rintro d rfl
    obtain ⟨hk, haddr, rfl⟩ := decode_eq_ok_wrnmode_iff.mp hd
    refine exists_widthOf ?_
    by_contra! hn
    exact hw ⟨hk, haddr, hn⟩

/-! ### A word NotStarted does not apply to (R222, R251) -/

section

variable {w : Txn} {s : State} (h : ¬(s.started = false ∧ w ≠ 0xC000000000))

include h

/-- The machine has started, unless the word is RESET's. -/
theorem started_of_decode_ne_reset (hd : decode w ≠ .ok .reset) : s.started = true := by
  have hw : w ≠ 0xC000000000 := fun hw => hd (by rw [hw]; decide)
  exact Bool.eq_true_of_not_eq_false fun hs => h ⟨hs, hw⟩

theorem transact_eq_refusalOf {e : DecodeError} (hd : decode w = .error e) :
    transact w s = .refused (refusalOf e) :=
  transact_of_decode_error (started_of_decode_ne_reset h (by simp [hd])) hd

theorem transact_of_badWidth (hw : BadWidth w) : transact w s = .refused .noiseWidthNotLegal := by
  obtain ⟨hk, haddr, h3, h4, h10⟩ := hw
  have hd := decode_eq_ok_wrnmode_iff.mpr ⟨hk, haddr, rfl⟩
  rw [transact_of_decode hd]
  exact execWrnmode_of_widthOf_none (started_of_decode_ne_reset h (by simp [hd])) (widthOf_eq_none h3 h4 h10)

end

end Sys2Proof.Machine

/-! ### The statements settled -/

namespace Sys2Proof.Proofs

open Sys2Proof.Machine Sys2Proof.Safety

/-- Settles O6: the transaction of the word is refused, for a reason the step records. -/
theorem stepRecordsAnUndecodableWord : Obligations.StepRecordsAnUndecodableWord := by
  intro s w rest e hs hd
  rw [step_of_cons hs]
  have htr := transact_of_undecodable hd { s with host := rest }
  exact settle_of_refused htr (refusesBySpec_transact _ _ _ htr)

/-- Settles O9: past NotStarted the first three conditions are the decoder's errors, and of the words that decode an
illegal width alone is refused. -/
theorem firstApplicableReasonIsReported : Obligations.FirstApplicableReasonIsReported := by
  intro w s
  split_ifs with hstart hf hc ha hw
  · exact transact_of_not_started hstart.1 hstart.2
  · exact transact_eq_refusalOf hstart (decode_eq_reservedEncoding_iff.mpr hf)
  · exact transact_eq_refusalOf hstart (decode_eq_noSuchChannel_iff.mpr ⟨hf, hc⟩)
  · exact transact_eq_refusalOf hstart (decode_eq_reservedAddress_iff.mpr ⟨hf, ha⟩)
  · exact transact_of_badWidth hstart hw
  · obtain ⟨i, hd⟩ := exists_decode_ok hf hc ha
    rw [transact_of_decode hd]
    exact exists_exec_next_of_decode hd (fun hi => started_of_decode_ne_reset hstart (by simp [hd, hi])) hw

end Sys2Proof.Proofs

/-! SUPPORT and proofs. Reset and hazards, 70_reset_and_hazards.md: RESET's word in any state (R250, R251), what the ring
mix is while a tone channel gives out 0 (R258), and the statements these settle. -/

namespace Sys2Proof.Machine

/-- R250: RESET's word is performed in every state, and the block it leaves is made of the parameters alone. -/
theorem transact_reset_word (s : State) :
    transact 0xC000000000 s = .next { s with block := Block.afterReset s.cfg.resetVol, started := true } :=
  transact_of_decode (i := .reset) (by decide) s

/-- R160: a channel that is inactive, muted or low after the sample gives out 0. -/
theorem sampleOut_of_silent_or_low {S : Int} {j : Chan} {k : Block}
    (h : ¬((getChan j k).active = true ∧ (getChan j k).muted = false) ∨ (getChan j (sampleBlock S k)).amp = 0) :
    sampleOut S j k = 0 := by
  rcases h with hsilent | hlow
  · rw [sampleOut_eq_ite, if_neg hsilent]
  · exact sampleOut_induction (P := (· = 0)) rfl (by rw [hlow]; rfl)

/-- R191: channels 0 and 1 stand in the ring mix as a product alone, so that a 0 in either leaves channel 2. -/
theorem mix_true_of_eq_zero {o0 o1 : Int} (h : o0 = 0 ∨ o1 = 0) (o2 : Int) : mix true o0 o1 o2 = o2 := by
  rw [mix_true, mul_eq_zero.mpr h, zero_add]

end Sys2Proof.Machine

/-! ### The statements settled -/

namespace Sys2Proof.Proofs

open Sys2Proof.Machine Sys2Proof.Safety

/-- Settles O12: every meaning but RESET's asks `started` first, and RESET's reads nothing of the block. -/
theorem onlyResetIsAcceptedBeforeTheFirstReset : Obligations.OnlyResetIsAcceptedBeforeTheFirstReset := by
  intro s hs
  refine ⟨fun w => transact_of_not_started hs, ⟨_, transact_reset_word s, rfl⟩, fun k => ?_⟩
  rw [transact_reset_word, transact_reset_word]

/-- Settles O39: one of the two tone outputs is 0, and with it the product they are heard as. -/
theorem ringSilencesBothTones : Obligations.RingSilencesBothTones := by
  intro s hs hinv hring
  obtain ⟨t, ht, hblock, -, -⟩ := exists_exec_sample_next hs
  obtain ⟨y, osc0, osc1, osc2, hresponse, hy, -, -, -⟩ := exec_sample_response hinv ht
  refine ⟨t, ht, fun hquiet => ⟨y, osc0, osc1, osc2, hresponse, ?_⟩⟩
  rw [hblock] at hquiet ⊢
  have hzero : sampleOut s.cfg.outputScale .ch0 s.block = 0 ∨ sampleOut s.cfg.outputScale .ch1 s.block = 0 := by
    rcases hquiet with h0 | h1 | h0 | h1
    · exact .inl (sampleOut_of_silent_or_low (.inl h0))
    · exact .inr (sampleOut_of_silent_or_low (.inl h1))
    · exact .inl (sampleOut_of_silent_or_low (.inr h0))
    · exact .inr (sampleOut_of_silent_or_low (.inr h1))
  rw [hy, hring, mix_true_of_eq_zero hzero, sampleOut_eq_ite, clampOut_eq]
  rfl

end Sys2Proof.Proofs

/-! Proofs. The words the spec's vectors write out, 95_test_vectors.md sections 1 to 3. -/

namespace Sys2Proof.Proofs

open Sys2Proof.Machine Sys2Proof.Safety

/-- Settles O4: each word that decodes is the encoder's word of its transaction, and each of the others meets its
error's condition of R220 and none before it in R222's order. -/
theorem wordsOfTheSpecDecode : Obligations.WordsOfTheSpecDecode := by
  have hdecodes {w : Txn} {i : Instr} (hi : i.wellFormed = true) (hw : encode i = w) : decode w = .ok i :=
    decode_eq_ok_iff.mpr ⟨hi, hw⟩
  have hfields : BadFields 0x4C00000001 := by decide
  have hchannel : ¬BadFields 0x5B00000000 ∧ NamesChannel3 0x5B00000000 := by decide
  have haddress : ¬BadFields 0x1E00000000 ∧ BadAddress 0x1E00000000 := by decide
  exact ⟨hdecodes rfl rfl, hdecodes rfl rfl, hdecodes rfl rfl, hdecodes rfl rfl, hdecodes rfl rfl, hdecodes rfl rfl,
    hdecodes rfl rfl, hdecodes rfl rfl, hdecodes rfl rfl, decode_eq_reservedEncoding_iff.mpr hfields,
    decode_eq_noSuchChannel_iff.mpr hchannel, decode_eq_reservedAddress_iff.mpr haddress⟩

end Sys2Proof.Proofs
